-- ==== Sys2Proof/Word.lean ====
section
/-! DEFINITION. The words of the block whose width the spec fixes: event word, phase code, strip command word, reset
pin, gear register, colour component (00_scope.md R9, R12; 30_encoding.md). Registers whose width is a parameter are
natural numbers below a power of two, as 00_scope.md R9 defines a value of width `N` (log entry 4). -/

namespace Sys2Proof

/-- A colour component or the luminance, 8 bits (00_scope.md R12). -/
abbrev Byte := BitVec 8

/-- The event word `EV` (30_encoding.md R100). -/
abbrev EventWord := BitVec 7

/-- The code of `Phase` (30_encoding.md R106). -/
abbrev PhaseCode := BitVec 4

/-- The strip command word `SC` (30_encoding.md R110). -/
abbrev StripWord := BitVec 33

/-- The level of the pin `rst` (30_encoding.md R119). -/
abbrev ResetPin := BitVec 1

/-- The gear register, 3 bits (10_state.md R37). -/
abbrev Gear := BitVec 3

end Sys2Proof
end

