-- ==== Sys2Proof/Syntax.lean ====
section
/-! DEFINITION. The syntax of the block: its operations and strip commands (one constructor of `Instr` per row of
spec/opcode_table.json), the encoded words, the phase codes' names, the turns an execution is made of and the trace
notation (30_encoding.md; 44_step_and_loop.md R220). -/

namespace Sys2Proof

/-- The bits of the event word, by the names of 30_encoding.md R100. -/
inductive EventBit where
  | tkc | tkf | tach | pu | pd | cu | cd
  deriving DecidableEq, Repr

/-- The 14 legal values of `Phase`, by the names of 10_state.md R41; the reserved codes 14 and 15 cannot be written
down (10_state.md R42). -/
inductive Phase where
  | chks | est | map | clr | seg | chkc | shup | dau | dmu | clu | shdn | dad | dmd | cld
  deriving DecidableEq, Repr

/-- The operations of the block and the two strip command words: the rows of spec/opcode_table.json. -/
inductive Instr where
  -- format EV, event operations (30_encoding.md R102 to R104)
  | tickc | tickf | tach | svpu | svpd | svcu | svcd | nope
  -- format PH, micro-operations of the sequencer (30_encoding.md R106)
  | chks | est | map | sclr | sseg | chkc | shup | dasu | dmku | clru | shdn | dasd | dmkd | clrd
  -- format SC, strip command words (30_encoding.md R111, R112)
  | clr
  | seg (l r g b : Byte)
  -- format PIN (30_encoding.md R119)
  | reset
  deriving DecidableEq, Repr

/-- A strip command as the strip reads it from a command word (30_encoding.md R110). -/
inductive StripCommand where
  | clr
  | seg (l r g b : Byte)
  deriving DecidableEq, Repr

/-- The four formats of 30_encoding.md. -/
inductive Format where
  | ev | ph | sc | pin
  deriving DecidableEq, Repr

/-- An encoded word, with the port or register it stands at: that place is what tells the formats apart. -/
inductive CodeWord where
  | ev (w : EventWord)
  | ph (c : PhaseCode)
  | sc (w : StripWord)
  | pin (level : ResetPin)
  deriving DecidableEq, Repr

/-- Why the decoder refuses a word. -/
inductive DecodeReject where
  /-- Phase codes 14 and 15 (30_encoding.md R115 (b)). Safe: no operation writes them. -/
  | reservedPhaseCode
  /-- A strip word with `op = 0` and a payload bit set (30_encoding.md R115 (c)). Safe: the block never emits one. -/
  | reservedStripWord
  /-- The pin `rst` is low: no `RESET` is asked for (30_encoding.md R119). Safe. -/
  | resetPinLow
  deriving DecidableEq, Repr

/-- One step of an execution: an event step, a sequencer step or a reset step (44_step_and_loop.md R220). -/
inductive Turn where
  | event (w : EventWord)
  | seq
  | reset
  deriving DecidableEq, Repr, Inhabited

/-- A line of the trace notation (30_encoding.md R117, R118). -/
inductive TraceLine where
  | reset
  | ev (bits : List EventBit)
  | seq (n : Nat)
  | tickc (n : Nat)
  | tickf (n : Nat)
  | tach | pu | pd | cu | cd | nope
  | pulse (n : Nat)
  | iter
  deriving DecidableEq, Repr

end Sys2Proof
end

