-- ==== Sys2Proof/Config.lean ====
section
/-! DEFINITION. What an implementation of the block fixes: the parameters of 00_scope.md R5 to R17, their derived
quantities and the reference configuration. No operation changes a parameter (10_state.md R47). The block leaves no
result undefined; the one free value is the order of turns, which 44_step_and_loop.md R220 leaves open. -/

namespace Sys2Proof

/-- A colour, three components of 8 bits (00_scope.md R12). -/
structure Color where
  r : Byte
  g : Byte
  b : Byte
  deriving DecidableEq, Repr

/-- What one segment of the strip is told to show: luminance and colour (00_scope.md R12). -/
structure SegmentValue where
  l : Byte
  r : Byte
  g : Byte
  b : Byte
  deriving DecidableEq, Repr

/-- `OFF`, the dark segment (00_scope.md R12). -/
def SegmentValue.off : SegmentValue := ⟨0, 0, 0, 0⟩

/-- The configuration (00_scope.md R5). A field with a default has the default the spec gives it; the display tables
are lists whose first entry has index 1 (00_scope.md R14). -/
structure Config where
  /-- `TICK_RATE`, capture ticks per second. -/
  tickRate : Nat
  /-- `PPR`, tachometer pulses per revolution. -/
  ppr : Nat
  /-- `MAX_SPEED`, revolutions per minute. -/
  maxSpeed : Nat
  /-- `REDLINE_MARGIN`, revolutions per minute. -/
  redlineMargin : Nat
  /-- `N_GREEN`, segments. -/
  nGreen : Nat
  /-- `N_YELLOW`, segments. -/
  nYellow : Nat
  /-- `N_RED`, segments. -/
  nRed : Nat
  /-- `BRIGHTNESS`. -/
  brightness : Byte
  /-- `DISP_ASSERT[1..10]`. -/
  dispAssert : List Nat
  /-- `DISP_DEASSERT[1..10]`; a 1 means release (92_eei_decisions.md D21). -/
  dispDeassert : List Nat
  /-- `COLOR_GREEN`. -/
  colorGreen : Color
  /-- `COLOR_YELLOW`. -/
  colorYellow : Color
  /-- `COLOR_RED`. -/
  colorRed : Color
  /-- `COLOR_ALERT`, a parameter of its own (92_eei_decisions.md D14). -/
  colorAlert : Color
  /-- `FLASH_PERIOD`, flash ticks between two toggles. -/
  flashPeriod : Nat
  /-- `CNT_W`, width of `IntervalCounter`, `CaptureSample`, `SampleLatch`. -/
  cntW : Nat := 16
  /-- `FT_W`, width of `FlashTimer`, `FlashCompare`. -/
  ftW : Nat := 16
  /-- `SPEED_W`, width of `SpeedValue`. -/
  speedW : Nat := 32
  /-- `LIT_W`, width of `LitCount`. -/
  litW : Nat := 40
  /-- `SEG_W`, width of `SegIdx`, `SegEnd`. -/
  segW : Nat := 8
  /-- `DISP_W`, width of `DispOut` and of the display table entries. -/
  dispW : Nat := 8
  /-- `GEAR_RESET`, the gear after reset. -/
  gearReset : Gear := 1
  /-- `CLEAR_ON_BOUND`: whether a confirm flag whose guard fails is cleared (92_eei_decisions.md D17). -/
  clearOnBound : Bool := false
  deriving DecidableEq, Repr

/-- `TOTAL`, the segment count (00_scope.md R5). -/
def Config.total (c : Config) : Nat := c.nGreen + c.nYellow + c.nRed

/-- `CEIL`, the graduation ceiling (00_scope.md R6). -/
def Config.ceil (c : Config) : Nat := c.maxSpeed - c.redlineMargin

/-- `RATE_NUM` (00_scope.md R7). -/
def Config.rateNum (c : Config) : Nat := c.tickRate * 60

/-- `K`, the one rate constant a divider may hold (40_capture_estimator.md R142). -/
def Config.rateConst (c : Config) : Nat := c.rateNum / c.ppr

/-- `GEAR_MIN` (00_scope.md R5, R8). -/
def gearMin : Gear := 1

/-- `GEAR_MAX` (00_scope.md R5, R8). -/
def gearMax : Gear := 6

/-- The reference configuration (00_scope.md R16) with the reference display tables, a seven-segment code
(00_scope.md R17). Log entry 2. -/
def Config.reference : Config where
  tickRate := 1000000
  ppr := 2
  maxSpeed := 10000
  redlineMargin := 400
  nGreen := 10
  nYellow := 10
  nRed := 10
  brightness := 0x10
  dispAssert := [0x06, 0x5B, 0x4F, 0x66, 0x6D, 0x7D, 0x07, 0x7F, 0x6F, 0x3F]
  dispDeassert := [0x79, 0x24, 0x30, 0x19, 0x12, 0x02, 0x78, 0x00, 0x10, 0x40]
  colorGreen := ⟨0x00, 0xFF, 0x00⟩
  colorYellow := ⟨0xFF, 0xFF, 0x00⟩
  colorRed := ⟨0xFF, 0x00, 0x00⟩
  colorAlert := ⟨0xFF, 0x00, 0x00⟩
  flashPeriod := 1000

/-- A free endless sequence of turns: any of them is an execution's (44_step_and_loop.md R220), so nothing is known of
this one, not even that the sequencer ever moves (R221). Log entry 3. -/
opaque Config.openTurn : Nat → Turn

end Sys2Proof
end

