-- ==== Sys2Proof/WellFormed.lean ====
section
/-! DEFINITION. The checks: legal configurations (70_reset_and_hazards.md R272), words a decoder accepts
(30_encoding.md R115), instructions. -/

namespace Sys2Proof

/-- `TICK_RATE >= 1` (00_scope.md R5). -/
def Config.tickRateOk (c : Config) : Bool := decide (1 ≤ c.tickRate)

/-- `PPR >= 1` (00_scope.md R5) and `PPR < 2^8` (00_scope.md R7). -/
def Config.pprOk (c : Config) : Bool := decide (1 ≤ c.ppr ∧ c.ppr < 2 ^ 8)

/-- `REDLINE_MARGIN < MAX_SPEED` (00_scope.md R5), which is `CEIL >= 1` (00_scope.md R6). -/
def Config.ceilOk (c : Config) : Bool := decide (c.redlineMargin < c.maxSpeed)

/-- `1 <= TOTAL <= 255` (00_scope.md R5). -/
def Config.totalOk (c : Config) : Bool := decide (1 ≤ c.total ∧ c.total ≤ 255)

/-- `floor(RATE_NUM / PPR) < 2^SPEED_W` (00_scope.md R7). -/
def Config.speedWidthOk (c : Config) : Bool := decide (c.rateNum / c.ppr < 2 ^ c.speedW)

/-- `LIT_W >= SPEED_W + 8` (41_mapper_flash.md R158). -/
def Config.litWidthOk (c : Config) : Bool := decide (c.speedW + 8 ≤ c.litW)

/-- `TOTAL` fits the width `SEG_W` of `SegEnd` (10_state.md R32). DESIGN CHOICE, log entry 6. -/
def Config.segWidthOk (c : Config) : Bool := decide (c.total < 2 ^ c.segW)

/-- `1 <= FLASH_PERIOD < 2^FT_W` (00_scope.md R5). -/
def Config.flashPeriodOk (c : Config) : Bool := decide (1 ≤ c.flashPeriod ∧ c.flashPeriod < 2 ^ c.ftW)

/-- `1 <= GEAR_RESET <= 6` (00_scope.md R5). -/
def Config.gearResetOk (c : Config) : Bool := decide (gearMin ≤ c.gearReset ∧ c.gearReset ≤ gearMax)

/-- A display table has ten entries of `DISP_W` bits (00_scope.md R14). -/
def tableOk (w : Nat) (t : List Nat) : Bool := decide (t.length = 10) && t.all fun e => decide (e < 2 ^ w)

/-- Both display tables are tables of `DISP_W`-bit entries (00_scope.md R14). -/
def Config.tablesOk (c : Config) : Bool := tableOk c.dispW c.dispAssert && tableOk c.dispW c.dispDeassert

/-- A legal configuration; the model refuses any other (70_reset_and_hazards.md R272). -/
def Config.isLegal (c : Config) : Bool :=
  c.tickRateOk && c.pprOk && c.ceilOk && c.totalOk && c.speedWidthOk && c.litWidthOk && c.segWidthOk &&
    c.flashPeriodOk && c.gearResetOk && c.tablesOk

/-- A configuration together with the check that it is legal, as 93_implementation_defined.md U13 asks. -/
structure LegalConfig extends Config where
  legal : toConfig.isLegal = true
  deriving DecidableEq, Repr

/-- The reference configuration is legal. -/
def LegalConfig.reference : LegalConfig := ⟨Config.reference, by decide⟩

/-- The words a decoder accepts: every event word, a phase code below 14, a strip word that is `CLR` or has `op = 1`,
and a pin that is high (30_encoding.md R115, R119). -/
def CodeWord.wellFormed : CodeWord → Bool
  | .ev _ => true
  | .ph c => decide (c.toNat < 14)
  | .sc w => w.getLsbD 32 || decide (w = 0)
  | .pin level => decide (level = 1)

/-- Every term of `Instr` is well formed: only `SEG` has operands, and each is typed at its own width
(30_encoding.md R112, R114). -/
def Instr.wellFormed : Instr → Bool
  | .tickc | .tickf | .tach | .svpu | .svpd | .svcu | .svcd | .nope => true
  | .chks | .est | .map | .sclr | .sseg | .chkc | .shup | .dasu | .dmku | .clru | .shdn | .dasd | .dmkd | .clrd => true
  | .clr => true
  | .seg _ _ _ _ => true
  | .reset => true

end Sys2Proof
end

