-- ==== Sys2Proof/Decode.lean ====
section
/-! DEFINITION. Decoding and encoding (30_encoding.md): event words, phase codes, strip command words, the reset pin;
the rows of spec/opcode_table.json as data; and the host's reading of one table word. -/

namespace Sys2Proof

/-! ## Format EV -/

/-- The position of an event bit (30_encoding.md R100). -/
def EventBit.index : EventBit → Nat
  | .tkc => 6
  | .tkf => 5
  | .tach => 4
  | .pu => 3
  | .pd => 2
  | .cu => 1
  | .cd => 0

/-- Whether the event word requests the event of a bit (30_encoding.md R100). -/
def carries (w : EventWord) (b : EventBit) : Bool := w.getLsbD b.index

/-- The event word with the named bits set (30_encoding.md R117). -/
def eventWord (bits : List EventBit) : EventWord :=
  bits.foldl (fun w b => w ||| (1#7 <<< b.index)) 0

/-- The one input-edge operation of a word: the first of `pu`, `pd`, `cu`, `cd` wins, the others are dropped
(30_encoding.md R103, R105). -/
def decodeEdge (w : EventWord) : List Instr :=
  if carries w .pu then [.svpu]
  else if carries w .pd then [.svpd]
  else if carries w .cu then [.svcu]
  else if carries w .cd then [.svcd]
  else []

/-- The operations of an event word in their order; the empty word is `NOPE` (30_encoding.md R101, R104; log
entry 16). -/
def decodeEvent (w : EventWord) : List Instr :=
  if w = 0 then [.nope]
  else
    (if carries w .tkc then [.tickc] else []) ++ (if carries w .tkf then [.tickf] else []) ++
      (if carries w .tach then [.tach] else []) ++ decodeEdge w

/-! ## Format PH -/

/-- The code of a phase (10_state.md R41). -/
def Phase.code : Phase → PhaseCode
  | .chks => 0
  | .est => 1
  | .map => 2
  | .clr => 3
  | .seg => 4
  | .chkc => 5
  | .shup => 6
  | .dau => 7
  | .dmu => 8
  | .clu => 9
  | .shdn => 10
  | .dad => 11
  | .dmd => 12
  | .cld => 13

/-- The phases in the order of their codes (10_state.md R41). -/
def Phase.all : List Phase :=
  [.chks, .est, .map, .clr, .seg, .chkc, .shup, .dau, .dmu, .clu, .shdn, .dad, .dmd, .cld]

/-- The phase of a code; the reserved codes 14 and 15 have none (10_state.md R42). -/
def Phase.ofCode? (c : PhaseCode) : Option Phase := Phase.all[c.toNat]?

/-- The micro-operation a phase selects (10_state.md R41). -/
def Phase.microOp : Phase → Instr
  | .chks => .chks
  | .est => .est
  | .map => .map
  | .clr => .sclr
  | .seg => .sseg
  | .chkc => .chkc
  | .shup => .shup
  | .dau => .dasu
  | .dmu => .dmku
  | .clu => .clru
  | .shdn => .shdn
  | .dad => .dasd
  | .dmd => .dmkd
  | .cld => .clrd

/-- The micro-operation of a phase code (30_encoding.md R106, R115 (b)). -/
def decodePhase (c : PhaseCode) : Except DecodeReject Instr :=
  match Phase.ofCode? c with
  | some p => .ok p.microOp
  | none => .error .reservedPhaseCode

/-! ## Format SC -/

/-- The fields of a strip command word, most significant first, `op l r g b` (30_encoding.md R110). -/
def stripWord (op : BitVec 1) (l r g b : Byte) : StripWord := op ++ l ++ r ++ g ++ b

/-- The word of a strip command (30_encoding.md R111, R112). -/
def StripCommand.word : StripCommand → StripWord
  | .clr => stripWord 0 0 0 0 0
  | .seg l r g b => stripWord 1 l r g b

/-- The strip command of a word; `op = 0` with a payload bit set is reserved (30_encoding.md R110, R115 (c)). -/
def parseStrip (w : StripWord) : Except DecodeReject StripCommand :=
  if w.getLsbD 32 then
    .ok (.seg (w.extractLsb' 24 8) (w.extractLsb' 16 8) (w.extractLsb' 8 8) (w.extractLsb' 0 8))
  else if w = 0 then .ok .clr
  else .error .reservedStripWord

/-- The row of the opcode table a strip command is. -/
def StripCommand.instr : StripCommand → Instr
  | .clr => .clr
  | .seg l r g b => .seg l r g b

/-- The strip command word read as a row of the opcode table. -/
def decodeStrip (w : StripWord) : Except DecodeReject Instr := (parseStrip w).map StripCommand.instr

/-! ## Format PIN -/

/-- `RESET` is the level 1 of the pin (30_encoding.md R119). -/
def decodePin (level : ResetPin) : Except DecodeReject Instr :=
  if level = 1 then .ok .reset else .error .resetPinLow

/-! ## All formats -/

/-- The operations of a word: several only in format `EV` (30_encoding.md R101). -/
def decode : CodeWord → Except DecodeReject (List Instr)
  | .ev w => .ok (decodeEvent w)
  | .ph c => (decodePhase c).map ([·])
  | .sc w => (decodeStrip w).map ([·])
  | .pin level => (decodePin level).map ([·])

/-- The word of an instruction: for an event operation the word with that one event (30_encoding.md R102 to R104). -/
def encode : Instr → CodeWord
  | .tickc => .ev 0b1000000
  | .tickf => .ev 0b0100000
  | .tach => .ev 0b0010000
  | .svpu => .ev 0b0001000
  | .svpd => .ev 0b0000100
  | .svcu => .ev 0b0000010
  | .svcd => .ev 0b0000001
  | .nope => .ev 0b0000000
  | .chks => .ph 0b0000
  | .est => .ph 0b0001
  | .map => .ph 0b0010
  | .sclr => .ph 0b0011
  | .sseg => .ph 0b0100
  | .chkc => .ph 0b0101
  | .shup => .ph 0b0110
  | .dasu => .ph 0b0111
  | .dmku => .ph 0b1000
  | .clru => .ph 0b1001
  | .shdn => .ph 0b1010
  | .dasd => .ph 0b1011
  | .dmkd => .ph 0b1100
  | .clrd => .ph 0b1101
  | .clr => .sc (StripCommand.word .clr)
  | .seg l r g b => .sc (StripCommand.word (.seg l r g b))
  | .reset => .pin 1

/-! ## The rows of the opcode table -/

/-- A row of spec/opcode_table.json: the words of a format whose bits under `mask` are `value`. -/
structure OpcodeRow where
  mnemonic : String
  format : Format
  value : Nat
  mask : Nat
  deriving DecidableEq, Repr

/-- The rows in the table's order (30_encoding.md R102 to R104, R106, R111, R112, R119). -/
def opcodeRows : List OpcodeRow :=
  [⟨"TICKC", .ev, 0x40, 0x40⟩, ⟨"TICKF", .ev, 0x20, 0x20⟩, ⟨"TACH", .ev, 0x10, 0x10⟩, ⟨"SVPU", .ev, 0x08, 0x08⟩,
   ⟨"SVPD", .ev, 0x04, 0x0C⟩, ⟨"SVCU", .ev, 0x02, 0x0E⟩, ⟨"SVCD", .ev, 0x01, 0x0F⟩, ⟨"NOPE", .ev, 0x00, 0x7F⟩] ++
  [⟨"CHKS", .ph, 0x0, 0xF⟩, ⟨"EST", .ph, 0x1, 0xF⟩, ⟨"MAP", .ph, 0x2, 0xF⟩, ⟨"SCLR", .ph, 0x3, 0xF⟩,
   ⟨"SSEG", .ph, 0x4, 0xF⟩, ⟨"CHKC", .ph, 0x5, 0xF⟩, ⟨"SHUP", .ph, 0x6, 0xF⟩, ⟨"DASU", .ph, 0x7, 0xF⟩,
   ⟨"DMKU", .ph, 0x8, 0xF⟩, ⟨"CLRU", .ph, 0x9, 0xF⟩, ⟨"SHDN", .ph, 0xA, 0xF⟩, ⟨"DASD", .ph, 0xB, 0xF⟩,
   ⟨"DMKD", .ph, 0xC, 0xF⟩, ⟨"CLRD", .ph, 0xD, 0xF⟩] ++
  [⟨"CLR", .sc, 0x000000000, 0x1FFFFFFFF⟩, ⟨"SEG", .sc, 0x100000000, 0x100000000⟩, ⟨"RESET", .pin, 0x1, 0x1⟩]

/-- The name of an instruction in spec/opcode_table.json. -/
def Instr.mnemonic : Instr → String
  | .tickc => "TICKC"
  | .tickf => "TICKF"
  | .tach => "TACH"
  | .svpu => "SVPU"
  | .svpd => "SVPD"
  | .svcu => "SVCU"
  | .svcd => "SVCD"
  | .nope => "NOPE"
  | .chks => "CHKS"
  | .est => "EST"
  | .map => "MAP"
  | .sclr => "SCLR"
  | .sseg => "SSEG"
  | .chkc => "CHKC"
  | .shup => "SHUP"
  | .dasu => "DASU"
  | .dmku => "DMKU"
  | .clru => "CLRU"
  | .shdn => "SHDN"
  | .dasd => "DASD"
  | .dmkd => "DMKD"
  | .clrd => "CLRD"
  | .clr => "CLR"
  | .seg _ _ _ _ => "SEG"
  | .reset => "RESET"

/-- The format of a word. -/
def CodeWord.format : CodeWord → Format
  | .ev _ => .ev
  | .ph _ => .ph
  | .sc _ => .sc
  | .pin _ => .pin

/-- The bits of a word as a number. -/
def CodeWord.bits : CodeWord → Nat
  | .ev w => w.toNat
  | .ph c => c.toNat
  | .sc w => w.toNat
  | .pin level => level.toNat

/-- Whether a row of the table matches a word: same format, and the bits under the mask are the row's. -/
def OpcodeRow.accepts (row : OpcodeRow) (c : CodeWord) : Bool :=
  decide (row.format = c.format) && decide (c.bits &&& row.mask = row.value)

/-! ## The host's table words -/

/-- A one-byte table word, whose format its length does not tell: the eight words with at most one event are event
words, another legal phase code is a phase code, any other is an event word. DESIGN CHOICE, log entry 9. -/
def byteCodeWord (w : Nat) : Option CodeWord :=
  if w = 0 ∨ w = 1 ∨ w = 2 ∨ w = 4 ∨ w = 8 then some (.ev (BitVec.ofNat 7 w))
  else if w < 14 then some (.ph (BitVec.ofNat 4 w))
  else if w < 128 then some (.ev (BitVec.ofNat 7 w))
  else none

/-- The format of a table word, by the number of bits the table gives its row (log entry 9). -/
def tableCodeWord (nbits w : Nat) : Option CodeWord :=
  if nbits = 1 ∧ w < 2 ^ 1 then some (.pin (BitVec.ofNat 1 w))
  else if nbits = 4 ∧ w < 2 ^ 4 then some (.ph (BitVec.ofNat 4 w))
  else if nbits = 7 ∧ w < 2 ^ 7 then some (.ev (BitVec.ofNat 7 w))
  else if nbits = 8 then byteCodeWord w
  else if (nbits = 33 ∨ nbits = 40) ∧ w < 2 ^ 33 then some (.sc (BitVec.ofNat 33 w))
  else none

/-- The one instruction a table word decodes to; none where the decoder refuses the word or reads several
operations from it. -/
def decodeTableWord (nbits w : Nat) : Option Instr :=
  match tableCodeWord nbits w with
  | none => none
  | some c =>
    match decode c with
    | .ok [i] => some i
    | _ => none

end Sys2Proof
end

