-- ==== Sys2Proof/Machine/Operands.lean ====
section
/-! DEFINITION. The operands of the operations: registers at their width, the three lookup tables, the payload of
`SEG`, and the arithmetic of the estimator, the mapper and the display register. Nothing here reads the state. -/

namespace Sys2Proof.Machine

/-- The value a register of width `w` holds when `v` is written modulo `2^w` (00_scope.md R9). -/
def wrapTo (w v : Nat) : Nat := v % 2 ^ w

/-! ## Lookup tables -/

/-- A read of a display table at index 1 and up; outside its entries there is no value (20_memory.md R71). -/
def tableEntry (t : List Nat) (i : Nat) : Option Nat := if i = 0 then none else t[i - 1]?

/-- `DISP_ASSERT[g]` (20_memory.md R71). -/
def dispAssertAt (c : Config) (g : Gear) : Option Nat := tableEntry c.dispAssert g.toNat

/-- `DISP_DEASSERT[g]` (20_memory.md R71). -/
def dispDeassertAt (c : Config) (g : Gear) : Option Nat := tableEntry c.dispDeassert g.toNat

/-- The zone colour of a segment (00_scope.md R15). -/
def zoneColor (c : Config) (i : Nat) : Color :=
  if i < c.nGreen then c.colorGreen
  else if i < c.nGreen + c.nYellow then c.colorYellow
  else c.colorRed

/-- `SegColor[i]`, defined for `i < TOTAL` only (20_memory.md R71). -/
def segColorAt (c : Config) (i : Nat) : Option Color := if i < c.total then some (zoneColor c i) else none

/-! ## The payload of `SEG` -/

/-- The colour of the next segment: the alert colour in the redline regime, where `SegColor` is not read, else the
zone colour (30_encoding.md R114, 43_strip_sequencer.md R202). -/
def payloadColor (c : Config) (redline : Bool) (i : Nat) : Option Color :=
  if redline then some c.colorAlert else segColorAt c i

/-! ## Arithmetic -/

/-- `Speed(s)`, the estimate of a sample (40_capture_estimator.md R141). -/
def speedOf (c : Config) (sample : Nat) : Nat :=
  if sample = 0 then 0 else c.rateNum / (sample * c.ppr)

/-- `Lit(S)`, the lit count of a speed (41_mapper_flash.md R156, R160). -/
def litOf (c : Config) (speed : Nat) : Nat := speed * c.total / c.ceil

/-- The display register after an assert write, at `w` bits (42_shift_arbiter.md R182). -/
def assertBits (w x a : Nat) : Nat := (BitVec.ofNat w x ||| BitVec.ofNat w a).toNat

/-- The display register after a mask write, the complement taken at `w` bits (42_shift_arbiter.md R184). -/
def releaseBits (w x d : Nat) : Nat := (BitVec.ofNat w x &&& ~~~BitVec.ofNat w d).toNat

/-- The display register at reset: the assert and mask entries of `GEAR_RESET` applied to 0 (10_state.md R50). -/
def resetDisplay (c : Config) : Nat :=
  match dispAssertAt c c.gearReset, dispDeassertAt c c.gearReset with
  | some a, some d => releaseBits c.dispW (assertBits c.dispW 0 a) d
  | _, _ => 0

end Sys2Proof.Machine
end

