-- ==== Sys2Proof/Machine/Flags.lean ====
section
/-! DEFINITION. The flag computations: the redline regime and the render plan, the flash match, the confirm flags at a
gear bound. -/

namespace Sys2Proof.Machine

/-- `Redline`: the lit count is strictly above the segment count (41_mapper_flash.md R156, R161). -/
def redlineOf (c : Config) (lit : Nat) : Bool := decide (c.total < lit)

/-- `SegEnd`: how many segments the pass commands (41_mapper_flash.md R156, R157). -/
def segEndOf (c : Config) (lit : Nat) (flash : Bool) : Nat :=
  if c.total < lit then (if flash then c.total else 0) else lit

/-- The flash timer after one tick (41_mapper_flash.md R150). -/
def flashTick (c : Config) (timer : Nat) : Nat := wrapTo c.ftW (timer + 1)

/-- The re-armed compare value: the old one plus the period (41_mapper_flash.md R150). -/
def flashRearm (c : Config) (compare : Nat) : Nat := wrapTo c.ftW (compare + c.flashPeriod)

/-- The guard of the up transition (42_shift_arbiter.md R180). -/
def upAllowed (confirm : Bool) (g : Gear) : Bool := confirm && decide (g < gearMax)

/-- The guard of the down transition (42_shift_arbiter.md R188). -/
def downAllowed (confirm : Bool) (g : Gear) : Bool := confirm && decide (gearMin < g)

/-- A confirm flag after its guard has failed: cleared only if `CLEAR_ON_BOUND` (42_shift_arbiter.md R180, R188). -/
def confirmAtBound (c : Config) (confirm : Bool) : Bool :=
  if confirm && c.clearOnBound then false else confirm

end Sys2Proof.Machine
end

