-- ==== Sys2Proof/Machine/State.lean ====
section
/-! DEFINITION. The state of the block (10_state.md R20), the observations of the strip port (20_memory.md R74, R75),
the configuration it is built with and the turns still to come; the reasons a step can stop; reset. -/

namespace Sys2Proof.Machine

/-- The block raises no exception and no operation can fault (60_exceptions.md R250), so a fault has no form (log
entry 14). -/
inductive Fault where
  deriving DecidableEq, Repr

/-- The lookup tables (10_state.md R48). -/
inductive Table where
  | segColor | dispAssert | dispDeassert
  deriving DecidableEq, Repr

/-- Why a step is refused. -/
inductive Refusal where
  /-- Raised by an arm of `exec` whose instruction has no meaning; no arm does. Safe. -/
  | notModelled (mnemonic : String)
  /-- Raised by a table read outside the table's index range, for which 20_memory.md R71 forbids a value (`SSEG` at
  `SegIdx >= TOTAL`, a display micro-operation at gear 0). No reachable state does it. Safe; log entry 7. -/
  | indexOutsideTable (table : Table)
  /-- Raised by the strip when it is handed a reserved command word (30_encoding.md R115 (c)); the block never emits
  one. Safe; log entry 8. -/
  | reservedStripWord
  deriving DecidableEq, Repr

/-- What the external strip shows and where its next segment goes: `StripImage` and `StripPtr` (20_memory.md R75).
`none` is an unspecified entry (93_implementation_defined.md U9, log entry 5). -/
structure StripView where
  image : List (Option SegmentValue)
  ptr : Nat
  deriving DecidableEq, Repr

/-- Where the turns come from when the schedule has none left: the sequencer alone, or the free sequence of turns from
place `n` on (log entry 3). -/
inductive Supply where
  | sequencer
  | free (n : Nat)
  deriving DecidableEq, Repr

/-- The state. `cfg`, `schedule` and `supply` are the model's own (log entries 1 and 3); `stripOut` and `strip` are the
observations of the strip port (log entry 8); every other field is an element of 10_state.md R20. -/
structure State where
  /-- The configuration, fixed at elaboration (10_state.md R47). -/
  cfg : LegalConfig
  /-- `IntervalCounter` (R21). -/
  intervalCounter : Nat
  /-- `CaptureSample` (R22). -/
  captureSample : Nat
  /-- `SpeedReady` (R23). -/
  speedReady : Bool
  /-- `SampleLatch` (R24). -/
  sampleLatch : Nat
  /-- `SpeedValue` (R25). -/
  speedValue : Nat
  /-- `FlashTimer` (R26). -/
  flashTimer : Nat
  /-- `FlashCompare` (R27). -/
  flashCompare : Nat
  /-- `FlashPhase` (R28). -/
  flashPhase : Bool
  /-- `LitCount` (R29). -/
  litCount : Nat
  /-- `Redline` (R30). -/
  redline : Bool
  /-- `PhaseLatch` (R31). -/
  phaseLatch : Bool
  /-- `SegEnd` (R32). -/
  segEnd : Nat
  /-- `SegIdx` (R33). -/
  segIdx : Nat
  /-- `ActUp` (R34). -/
  actUp : Bool
  /-- `ActDn` (R34). -/
  actDn : Bool
  /-- `ReqUp` (R35). -/
  reqUp : Bool
  /-- `ReqDn` (R35). -/
  reqDn : Bool
  /-- `ConfirmUp` (R36). -/
  confirmUp : Bool
  /-- `ConfirmDn` (R36). -/
  confirmDn : Bool
  /-- `GearIndex` (R37). -/
  gearIndex : Gear
  /-- `DispOut` (R38). -/
  dispOut : Nat
  /-- `Phase` (R40). -/
  phase : Phase
  /-- `StripOut`, oldest word first (20_memory.md R74). -/
  stripOut : List StripWord
  /-- `StripImage` and `StripPtr` (20_memory.md R75). -/
  strip : StripView
  /-- The turns to come first (44_step_and_loop.md R220, log entry 3). -/
  schedule : List Turn
  /-- Where all later turns come from (44_step_and_loop.md R220, R221, log entry 3). -/
  supply : Supply
  deriving DecidableEq, Repr

/-- What an operation answers. -/
abbrev Result := Host.Outcome State Fault Refusal

/-- The state after reset of a block with configuration `c` (10_state.md R50, 70_reset_and_hazards.md R270). -/
def State.resetOf (c : LegalConfig) : State where
  cfg := c
  intervalCounter := 0
  captureSample := 0
  speedReady := false
  sampleLatch := 0
  speedValue := 0
  flashTimer := 0
  flashCompare := c.flashPeriod
  flashPhase := false
  litCount := 0
  redline := false
  phaseLatch := false
  segEnd := 0
  segIdx := 0
  actUp := false
  actDn := false
  reqUp := false
  reqDn := false
  confirmUp := false
  confirmDn := false
  gearIndex := c.gearReset
  dispOut := resetDisplay c.toConfig
  phase := .chks
  stripOut := []
  strip := ⟨List.replicate c.total none, 0⟩
  schedule := []
  supply := .sequencer

/-- The machine right after reset, in the reference configuration (log entry 2). -/
def State.reset : State := State.resetOf LegalConfig.reference

end Sys2Proof.Machine
end

