-- ==== Sys2Proof/Machine/Ops.lean ====
section
/-! DEFINITION. The operations the meanings share: sequencing, table reads, named updates of the state, the strip's
side of a command, the next turn, and placing a code word where its format enters the machine. There is no exception
to take and none to return from (60_exceptions.md R245, R246, R250). -/

namespace Sys2Proof.Machine

/-! ## Sequencing -/

/-- `;then` of 00_scope.md R10: the second part runs on the state the first left. -/
def andThen (r : Result) (f : State → Result) : Result :=
  match r with
  | .next s => f s
  | .fault e => .fault e
  | .refused e => .refused e

/-- Go on with a table entry, or refuse a read outside the table (20_memory.md R71). -/
def withEntry {α : Type} (table : Table) (entry : Option α) (f : α → Result) : Result :=
  match entry with
  | some a => f a
  | none => .refused (.indexOutsideTable table)

/-! ## Named updates -/

/-- `Phase <- p` (10_state.md R40). -/
def State.goto (s : State) (p : Phase) : State := { s with phase := p }

/-- The actuation outputs with the request flags that mirror them (42_shift_arbiter.md R170 to R176). -/
def State.setRelays (s : State) (up dn : Bool) : State :=
  { s with actUp := up, actDn := dn, reqUp := up, reqDn := dn }

/-- `DispOut <- v` (10_state.md R38). -/
def State.setDisplay (s : State) (v : Nat) : State := { s with dispOut := v }

/-- The word a step emits, appended to `StripOut` (20_memory.md R74). -/
def State.logWord (s : State) (w : StripWord) : State := { s with stripOut := s.stripOut ++ [w] }

/-- What the strip shows from now on (20_memory.md R75). -/
def State.setStrip (s : State) (v : StripView) : State := { s with strip := v }

/-! ## The strip's side of a command -/

/-- The effect of `CLR`: every segment `OFF`, the position back to 0 (43_strip_sequencer.md R210). -/
def StripView.clear (total : Nat) (_ : StripView) : StripView := ⟨List.replicate total (some .off), 0⟩

/-- The effect of `SEG`: one segment written and the position advanced, or nothing when the strip is full
(43_strip_sequencer.md R212). -/
def StripView.write (total : Nat) (v : StripView) (x : SegmentValue) : StripView :=
  if v.ptr < total then ⟨v.image.set v.ptr (some x), v.ptr + 1⟩ else v

/-! ## The display micro-operations -/

/-- The assert write of `DASU` and `DASD`, and the phase after it (42_shift_arbiter.md R182, R192). -/
def displayAssert (next : Phase) (s : State) : Result :=
  withEntry .dispAssert (dispAssertAt s.cfg.toConfig s.gearIndex) fun a =>
    .next ((s.setDisplay (assertBits s.cfg.dispW s.dispOut a)).goto next)

/-- The mask write of `DMKU` and `DMKD`, and the phase after it (42_shift_arbiter.md R184, R193). -/
def displayMask (next : Phase) (s : State) : Result :=
  withEntry .dispDeassert (dispDeassertAt s.cfg.toConfig s.gearIndex) fun d =>
    .next ((s.setDisplay (releaseBits s.cfg.dispW s.dispOut d)).goto next)

/-! ## Turns -/

/-- The turn a supply gives after `n` others (log entry 3). -/
def Supply.turn : Supply → Nat → Turn
  | .sequencer, _ => .seq
  | .free k, n => Config.openTurn (k + n)

/-- The supply that remains after `n` turns. -/
def Supply.drop : Supply → Nat → Supply
  | .sequencer, _ => .sequencer
  | .free k, n => .free (k + n)

/-- The next turn and the state that remains: the head of the schedule, or the supply's when it is empty
(44_step_and_loop.md R220, log entry 3). -/
def nextTurn (s : State) : Turn × State :=
  match s.schedule with
  | [] => (s.supply.turn 0, { s with supply := s.supply.drop 1 })
  | t :: rest => (t, { s with schedule := rest })

/-- The turn that comes after `n` others, for every `n`: the schedule's, then the supply's. -/
def State.turnAt (s : State) (n : Nat) : Turn :=
  match s.schedule[n]? with
  | some t => t
  | none => s.supply.turn (n - s.schedule.length)

/-- The state with its next `n` turns taken off. -/
def State.dropTurns (s : State) (n : Nat) : State :=
  { s with schedule := s.schedule.drop n, supply := s.supply.drop (n - s.schedule.length) }

/-- The state in which turn `t` comes next, before all others. -/
def State.before (s : State) (t : Turn) : State := { s with schedule := t :: s.schedule }

/-- The configuration with another payload for `SEG` in the redline regime. -/
def withPayload (c : LegalConfig) (l r g b : Byte) : LegalConfig :=
  { c with brightness := l, colorAlert := ⟨r, g, b⟩, legal := c.legal }

/-- The state whose next step is the one that executes a given word: an event word is presented, a phase code is the
value of `Phase`, the pin is raised, a strip command is the one the sequencer emits next. DESIGN CHOICE, log
entry 10. -/
def presentWord (s : State) : CodeWord → State
  | .ev w => s.before (.event w)
  | .ph c =>
    match Phase.ofCode? c with
    | some p => (s.goto p).before .seq
    | none => s
  | .sc w =>
    match parseStrip w with
    | .ok .clr => (s.goto .clr).before .seq
    | .ok (.seg l r g b) =>
      { s with cfg := withPayload s.cfg l r g b, redline := true, segIdx := 0, segEnd := 1, phase := .seg }.before .seq
    | .error _ => s
  | .pin level => if level = 1 then s.before .reset else s

end Sys2Proof.Machine
end

