-- ==== Sys2Proof/Machine/Arbiter.lean ====
section
/-! DEFINITION. The shift arbiter and the gear state machine (42_shift_arbiter.md): the four input-edge operations and
the nine micro-operations of the shift step. -/

namespace Sys2Proof.Machine

/-! ## Input-edge event operations -/

/-- `SVPU`: paddle-up edge (R170). -/
def execSvpu (s : State) : Result := .next (s.setRelays true false)

/-- `SVPD`: paddle-down edge (R172). -/
def execSvpd (s : State) : Result := .next (s.setRelays false true)

/-- `SVCU`: up-confirm sensor edge; both relays released whatever the direction (R174). -/
def execSvcu (s : State) : Result := .next { s.setRelays false false with confirmUp := true }

/-- `SVCD`: down-confirm sensor edge; both relays released whatever the direction (R176). -/
def execSvcd (s : State) : Result := .next { s.setRelays false false with confirmDn := true }

/-! ## The shift step -/

/-- `CHKC`: enter the shift step if a confirm flag is pending (R178). -/
def execChkc (s : State) : Result :=
  if s.confirmUp || s.confirmDn then .next (s.goto .shup) else .next (s.goto .chks)

/-- `SHUP`: the up transition (R180). -/
def execShup (s : State) : Result :=
  if upAllowed s.confirmUp s.gearIndex then .next { s with gearIndex := s.gearIndex + 1, phase := .dau }
  else .next { s with confirmUp := confirmAtBound s.cfg.toConfig s.confirmUp, phase := .shdn }

/-- `DASU`: display assert, up path (R182). -/
def execDasu (s : State) : Result := displayAssert .dmu s

/-- `DMKU`: display mask, up path (R184). -/
def execDmku (s : State) : Result := displayMask .clu s

/-- `CLRU`: clear the up-confirm flag (R186). -/
def execClru (s : State) : Result := .next { s with confirmUp := false, phase := .shdn }

/-- `SHDN`: the down transition (R188). -/
def execShdn (s : State) : Result :=
  if downAllowed s.confirmDn s.gearIndex then .next { s with gearIndex := s.gearIndex - 1, phase := .dad }
  else .next { s with confirmDn := confirmAtBound s.cfg.toConfig s.confirmDn, phase := .chks }

/-- `DASD`: display assert, down path (R192). -/
def execDasd (s : State) : Result := displayAssert .dmd s

/-- `DMKD`: display mask, down path (R193). -/
def execDmkd (s : State) : Result := displayMask .cld s

/-- `CLRD`: clear the down-confirm flag; the iteration ends (R190). -/
def execClrd (s : State) : Result := .next { s with confirmDn := false, phase := .chks }

end Sys2Proof.Machine
end

