-- ==== Sys2Proof/Machine/Capture.lean ====
section
/-! DEFINITION. The frequency counter: `TICKC`, `TACH`, `CHKS`, `EST` (40_capture_estimator.md). -/

namespace Sys2Proof.Machine

/-- `TICKC`: one tick of the capture timer, which wraps silently (R130). -/
def execTickc (s : State) : Result :=
  .next { s with intervalCounter := wrapTo s.cfg.cntW (s.intervalCounter + 1) }

/-- `TACH`: capture the counter, zero it, raise "speed data ready" (R132). -/
def execTach (s : State) : Result :=
  .next { s with captureSample := s.intervalCounter, intervalCounter := 0, speedReady := true }

/-- `CHKS`: atomic load-and-clear of a ready sample (R136). -/
def execChks (s : State) : Result :=
  if s.speedReady then
    .next { s with sampleLatch := s.captureSample, speedReady := false, phase := .est }
  else .next (s.goto .chkc)

/-- `EST`: the Speed Estimator (R141). -/
def execEst (s : State) : Result :=
  .next { s with speedValue := speedOf s.cfg.toConfig s.sampleLatch, phase := .map }

end Sys2Proof.Machine
end

