-- ==== Sys2Proof/Machine/Mapper.lean ====
section
/-! DEFINITION. The mapper and the flash-phase multiplexer: `TICKF`, `MAP` (41_mapper_flash.md). -/

namespace Sys2Proof.Machine

/-- `TICKF`: one tick of the flash timer; on a match the flash phase toggles and the compare value is re-armed from
its own old value (R150). -/
def execTickf (s : State) : Result :=
  if flashTick s.cfg.toConfig s.flashTimer = s.flashCompare then
    .next { s with
      flashTimer := flashTick s.cfg.toConfig s.flashTimer
      flashPhase := !s.flashPhase
      flashCompare := flashRearm s.cfg.toConfig s.flashCompare }
  else .next { s with flashTimer := flashTick s.cfg.toConfig s.flashTimer }

/-- `MAP`: speed value and flash phase to a render plan (R156). -/
def execMap (s : State) : Result :=
  let lit := litOf s.cfg.toConfig s.speedValue
  .next { s with
    litCount := lit
    redline := redlineOf s.cfg.toConfig lit
    phaseLatch := s.flashPhase
    segEnd := segEndOf s.cfg.toConfig lit s.flashPhase
    segIdx := 0
    phase := .clr }

end Sys2Proof.Machine
end

