-- ==== Sys2Proof/Machine/Strip.lean ====
section
/-! DEFINITION. The indicator-strip output sequencer (43_strip_sequencer.md): the strip commands `CLR` and `SEG`, the
emission of a command word, and the micro-operations `SCLR` and `SSEG`. -/

namespace Sys2Proof.Machine

/-- `CLR`: the effect of the command on the strip (R210). -/
def execClr (s : State) : Result := .next (s.setStrip (s.strip.clear s.cfg.total))

/-- `SEG l r g b`: the effect of the command on the strip (R212). -/
def execSeg (l r g b : Byte) (s : State) : Result :=
  .next (s.setStrip (s.strip.write s.cfg.total ⟨l, r, g, b⟩))

/-- The strip receives a command word (20_memory.md R75); it refuses a reserved one (30_encoding.md R115 (c)). -/
def stripReceive (w : StripWord) (s : State) : Result :=
  match parseStrip w with
  | .ok .clr => execClr s
  | .ok (.seg l r g b) => execSeg l r g b s
  | .error _ => .refused .reservedStripWord

/-- `emit c`: the command's word is appended to `StripOut`, and the strip receives it (00_scope.md R10,
20_memory.md R74, R75). -/
def emit (c : StripCommand) (s : State) : Result := stripReceive c.word (s.logWord c.word)

/-- `SCLR`: open a render pass with a full clear (R200). -/
def execSclr (s : State) : Result := andThen (emit .clr s) fun t => .next (t.goto .seg)

/-- `SSEG`: command the next segment, or close the pass (R202). -/
def execSseg (s : State) : Result :=
  if s.segIdx < s.segEnd then
    withEntry .segColor (payloadColor s.cfg.toConfig s.redline s.segIdx) fun x =>
      andThen (emit (.seg s.cfg.brightness x.r x.g x.b) s) fun t => .next { t with segIdx := s.segIdx + 1 }
  else .next (s.goto .chkc)

end Sys2Proof.Machine
end

