-- ==== Sys2Proof/Machine/System.lean ====
section
/-! DEFINITION. The empty event word `NOPE` (44_step_and_loop.md R224) and the pin operation `RESET`
(70_reset_and_hazards.md R270). -/

namespace Sys2Proof.Machine

/-- `NOPE`: no state element is written (R224). -/
def execNope (s : State) : Result := .next s

/-- `RESET`: every element at its reset value; no strip command is emitted, `StripOut` restarts empty and the image is
unspecified (R270). The turns still to come are the environment's and stay. -/
def execReset (s : State) : Result := .next { State.resetOf s.cfg with schedule := s.schedule, supply := s.supply }

end Sys2Proof.Machine
end

