-- ==== Sys2Proof/Machine/Dispatch.lean ====
section
/-! DEFINITION. One arm per constructor of `Instr`, in the order of spec/opcode_table.json. -/

namespace Sys2Proof.Machine

def exec (i : Instr) (s : State) : Host.Outcome State Fault Refusal :=
  match i with
  | .tickc => Sys2Proof.Machine.execTickc s
  | .tickf => Sys2Proof.Machine.execTickf s
  | .tach => Sys2Proof.Machine.execTach s
  | .svpu => Sys2Proof.Machine.execSvpu s
  | .svpd => Sys2Proof.Machine.execSvpd s
  | .svcu => Sys2Proof.Machine.execSvcu s
  | .svcd => Sys2Proof.Machine.execSvcd s
  | .nope => Sys2Proof.Machine.execNope s
  | .chks => Sys2Proof.Machine.execChks s
  | .est => Sys2Proof.Machine.execEst s
  | .map => Sys2Proof.Machine.execMap s
  | .sclr => Sys2Proof.Machine.execSclr s
  | .sseg => Sys2Proof.Machine.execSseg s
  | .chkc => Sys2Proof.Machine.execChkc s
  | .shup => Sys2Proof.Machine.execShup s
  | .dasu => Sys2Proof.Machine.execDasu s
  | .dmku => Sys2Proof.Machine.execDmku s
  | .clru => Sys2Proof.Machine.execClru s
  | .shdn => Sys2Proof.Machine.execShdn s
  | .dasd => Sys2Proof.Machine.execDasd s
  | .dmkd => Sys2Proof.Machine.execDmkd s
  | .clrd => Sys2Proof.Machine.execClrd s
  | .clr => Sys2Proof.Machine.execClr s
  | .seg l r g b => Sys2Proof.Machine.execSeg l r g b s
  | .reset => Sys2Proof.Machine.execReset s

end Sys2Proof.Machine
end

