-- ==== Sys2Proof/Machine/Execution.lean ====
section
/-! DEFINITION. How operations make an execution (44_step_and_loop.md): one event word, one turn, a list of turns, and
the trace notation (30_encoding.md R117, R118). -/

namespace Sys2Proof.Machine

/-- Several operations in order inside one atomic step, each on the state the one before left
(44_step_and_loop.md R222). -/
def runOps : List Instr → State → Result
  | [], s => .next s
  | i :: rest, s => andThen (exec i s) (runOps rest)

/-- One step of an execution (44_step_and_loop.md R220): a whole event word, the micro-operation `Phase` selects, or
`RESET`. -/
def act : Turn → State → Result
  | .event w, s => runOps (decodeEvent w) s
  | .seq, s => exec s.phase.microOp s
  | .reset, s => exec .reset s

/-- A finite execution, turn by turn (00_scope.md R11, 44_step_and_loop.md R220). -/
def runTurns : List Turn → State → Result
  | [], s => .next s
  | t :: rest, s => andThen (act t s) (runTurns rest)

/-- The states `σ` follow the turns `τ`, without end: each is what the turn before it left (00_scope.md R11). -/
def FollowsTurns (τ : Nat → Turn) (σ : Nat → State) : Prop := ∀ n, act (τ n) (σ n) = .next (σ (n + 1))

/-- An infinite execution: from the reset state, any endless sequence of turns (00_scope.md R11, 44_step_and_loop.md
R220). A finite one is `runTurns` from the reset state. -/
def IsInfiniteExecution (c : LegalConfig) (τ : Nat → Turn) (σ : Nat → State) : Prop :=
  σ 0 = State.resetOf c ∧ FollowsTurns τ σ

/-- Fairness: the sequencer takes infinitely many steps (44_step_and_loop.md R221). The environment is under no
obligation, so an endless sequence of turns need not be fair. -/
def Fair (τ : Nat → Turn) : Prop := ∀ n, ∃ m, n ≤ m ∧ τ m = .seq

/-- Sequencer steps until `Phase = P_CHKS` again, at most `n` (30_encoding.md R118, `ITER`; log entry
15). -/
def runIter : Nat → State → Result
  | 0, s => .next s
  | n + 1, s => andThen (act .seq s) fun t => if t.phase = .chks then .next t else runIter n t

/-- The bound on one iteration (44_step_and_loop.md R226). -/
def iterBound (c : Config) : Nat := c.total + 14

/-- The turns a line of the trace notation stands for; `ITER` depends on the state and has none of its own
(30_encoding.md R118). -/
def traceTurns : TraceLine → List Turn
  | .reset => [.reset]
  | .ev bits => [.event (eventWord bits)]
  | .seq n => List.replicate n .seq
  | .tickc n => List.replicate n (.event (eventWord [.tkc]))
  | .tickf n => List.replicate n (.event (eventWord [.tkf]))
  | .tach => [.event (eventWord [.tach])]
  | .pu => [.event (eventWord [.pu])]
  | .pd => [.event (eventWord [.pd])]
  | .cu => [.event (eventWord [.cu])]
  | .cd => [.event (eventWord [.cd])]
  | .nope => [.event (eventWord [])]
  | .pulse n => List.replicate n (.event (eventWord [.tkc])) ++ [.event (eventWord [.tach])]
  | .iter => []

/-- One line of a trace (30_encoding.md R117, R118). -/
def runLine (line : TraceLine) (s : State) : Result :=
  match line with
  | .iter => runIter (iterBound s.cfg.toConfig) s
  | other => runTurns (traceTurns other) s

/-- A trace, top to bottom (30_encoding.md R117). -/
def runTrace : List TraceLine → State → Result
  | [], s => .next s
  | line :: rest, s => andThen (runLine line s) (runTrace rest)

end Sys2Proof.Machine
end

