-- ==== Sys2Proof/Machine/Step.lean ====
section
/-! DEFINITION. The step of the machine and the host's way to place one word before it. -/

namespace Sys2Proof.Machine

/-- One step: the next turn, taken on the state that remains (44_step_and_loop.md R220). -/
def step (s : State) : Host.Outcome State Fault Refusal := act (nextTurn s).1 (nextTurn s).2

/-- The state whose next step executes the table word `w` (log entry 10). -/
def State.withFetchWord (s : State) (nbits w : Nat) : State :=
  match tableCodeWord nbits w with
  | some c => presentWord s c
  | none => s

end Sys2Proof.Machine
end

