-- ==== Sys2Proof/Safety.lean ====
section
/-! DEFINITION. What claims speak of: the invariants of 10_state.md R46, register widths, the agreement of the
observations with one another, what the display shows, and counts over the turns of an execution. -/

namespace Sys2Proof.Machine

/-! ## Invariants -/

/-- The invariants (a) to (g) of 10_state.md R46. -/
structure State.Inv (s : State) : Prop where
  /-- (a) the actuation outputs are mutually exclusive. -/
  relaysExclusive : ¬(s.actUp = true ∧ s.actDn = true)
  /-- (b) the request flags mirror the outputs. -/
  reqUpMirrors : s.reqUp = s.actUp
  reqDnMirrors : s.reqDn = s.actDn
  /-- (c) the gear is in `[1, 6]`. -/
  gearLow : 1 ≤ s.gearIndex.toNat
  gearHigh : s.gearIndex.toNat ≤ 6
  /-- (d) `SegIdx <= SegEnd <= TOTAL`. -/
  idxInPlan : s.segIdx ≤ s.segEnd
  planInStrip : s.segEnd ≤ s.cfg.total
  /-- (e) `0 <= Phase <= 13`. -/
  phaseLegal : s.phase.code.toNat ≤ 13
  /-- (f) `Redline = 1` exactly when `LitCount > TOTAL`. -/
  redlineMeans : s.redline = true ↔ s.cfg.total < s.litCount
  /-- (g) the speed and the lit count fit their registers. -/
  speedFits : s.speedValue < 2 ^ s.cfg.speedW
  litFits : s.litCount < 2 ^ s.cfg.litW

/-- Every register of parameter width holds a value of that width (00_scope.md R9, 20_memory.md R80; for `SegEnd` and
`SegIdx` by log entry 6), and the strip's image and position are in range (20_memory.md R75). -/
structure State.Widths (s : State) : Prop where
  counterFits : s.intervalCounter < 2 ^ s.cfg.cntW
  captureFits : s.captureSample < 2 ^ s.cfg.cntW
  latchFits : s.sampleLatch < 2 ^ s.cfg.cntW
  speedFits : s.speedValue < 2 ^ s.cfg.speedW
  litFits : s.litCount < 2 ^ s.cfg.litW
  timerFits : s.flashTimer < 2 ^ s.cfg.ftW
  compareFits : s.flashCompare < 2 ^ s.cfg.ftW
  segEndFits : s.segEnd < 2 ^ s.cfg.segW
  segIdxFits : s.segIdx < 2 ^ s.cfg.segW
  displayFits : s.dispOut < 2 ^ s.cfg.dispW
  imageLength : s.strip.image.length = s.cfg.total
  ptrInStrip : s.strip.ptr ≤ s.cfg.total

/-- The plan in `SegEnd` is the one `LitCount` and `PhaseLatch` call for (10_state.md R32, 41_mapper_flash.md R156). -/
def State.PlanAgrees (s : State) : Prop :=
  s.segEnd = if s.cfg.total < s.litCount then (if s.phaseLatch then s.cfg.total else 0) else s.litCount

/-- The strip's view after one command word (20_memory.md R75); a reserved word has no effect (30_encoding.md R115). -/
def StripView.after (total : Nat) (v : StripView) (w : StripWord) : StripView :=
  match parseStrip w with
  | .ok .clr => v.clear total
  | .ok (.seg l r g b) => v.write total ⟨l, r, g, b⟩
  | .error _ => v

/-- `StripImage` and `StripPtr` as the function of `StripOut` that 20_memory.md R75 says they are. -/
def stripViewOf (total : Nat) (out : List StripWord) : StripView :=
  out.foldl (StripView.after total) ⟨List.replicate total none, 0⟩

/-- The strip shows what the emitted words make it show (20_memory.md R75). -/
def State.StripAgrees (s : State) : Prop := s.strip = stripViewOf s.cfg.total s.stripOut

/-- The number of `SEG` words since the last `CLR` in a list of command words, read from a start `n` (`none` before
any `CLR`); `none` overall when a word is reserved, or a `SEG` has no `CLR` before it or `TOTAL` `SEG` words since it
(43_strip_sequencer.md R204). -/
def segsSinceClear (total : Nat) : Option Nat → List StripWord → Option (Option Nat)
  | n, [] => some n
  | n, w :: rest =>
    match parseStrip w, n with
    | .ok .clr, _ => segsSinceClear total (some 0) rest
    | .ok (.seg _ _ _ _), some k => if k < total then segsSinceClear total (some (k + 1)) rest else none
    | .ok (.seg _ _ _ _), none => none
    | .error _, _ => none

/-- `StripOut` is a run of passes: every `SEG` follows a `CLR` with fewer than `TOTAL` `SEG` words between
(43_strip_sequencer.md R204). -/
def State.StripShape (s : State) : Prop := (segsSinceClear s.cfg.total none s.stripOut).isSome = true

/-! ## The display -/

/-- The pair of display tables is well formed: at every index from 1 to 10 no bit is in both entries
(00_scope.md R14). -/
def TablesWellFormed (c : Config) : Prop :=
  ∀ i, 1 ≤ i → i ≤ 10 →
    ∃ a d, tableEntry c.dispAssert i = some a ∧ tableEntry c.dispDeassert i = some d ∧ a &&& d = 0

/-- The pair is complete over the bits of `m`: at every index from 1 to 10, well formed, and the two entries together
are `m` (00_scope.md R14). -/
def TablesComplete (c : Config) (m : Nat) : Prop :=
  ∀ i, 1 ≤ i → i ≤ 10 →
    ∃ a d, tableEntry c.dispAssert i = some a ∧ tableEntry c.dispDeassert i = some d ∧ a &&& d = 0 ∧ a ||| d = m

/-- The part of `TablesComplete` the operations can see: entries 1 to 6, those of the gears (20_memory.md R71). -/
def GearTablesComplete (c : Config) (m : Nat) : Prop :=
  ∀ g : Gear, 1 ≤ g.toNat → g.toNat ≤ 6 →
    ∃ a d, dispAssertAt c g = some a ∧ dispDeassertAt c g = some d ∧ a &&& d = 0 ∧ a ||| d = m

/-- What the display shows, for tables complete over `m` at the gears (42_shift_arbiter.md R187): no bit outside `m`; the digit of
`GearIndex` except inside a shift, where it is the digit before it until the assert write and both digits' bits
until the mask write. -/
def State.DisplayShows (m : Nat) (s : State) : Prop :=
  s.dispOut ||| m = m ∧
    match s.phase with
    | .dau => dispAssertAt s.cfg.toConfig (s.gearIndex - 1) = some s.dispOut
    | .dad => dispAssertAt s.cfg.toConfig (s.gearIndex + 1) = some s.dispOut
    | .dmu =>
      ∃ old new, dispAssertAt s.cfg.toConfig (s.gearIndex - 1) = some old ∧
        dispAssertAt s.cfg.toConfig s.gearIndex = some new ∧ s.dispOut = old ||| new
    | .dmd =>
      ∃ old new, dispAssertAt s.cfg.toConfig (s.gearIndex + 1) = some old ∧
        dispAssertAt s.cfg.toConfig s.gearIndex = some new ∧ s.dispOut = old ||| new
    | _ => dispAssertAt s.cfg.toConfig s.gearIndex = some s.dispOut

/-! ## Turns -/

/-- Whether a turn presents an event word that requests an event. -/
def requests (b : EventBit) : Turn → Bool
  | .event w => carries w b
  | .seq => false
  | .reset => false

/-- The number of turns that request an event. -/
def requestCount (b : EventBit) (ts : List Turn) : Nat := ts.countP (requests b)

/-- The number of sequencer steps among the turns. -/
def seqCount (ts : List Turn) : Nat := ts.count .seq

/-- The next `n` micro-operations when only the sequencer moves. -/
def opsFrom : Nat → State → List Instr
  | 0, _ => []
  | n + 1, s =>
    s.phase.microOp ::
      match act .seq s with
      | .next t => opsFrom n t
      | _ => []

/-- The successors of a phase, the table of 10_state.md R41. -/
def successorsOf : Phase → List Phase
  | .chks => [.est, .chkc]
  | .est => [.map]
  | .map => [.clr]
  | .clr => [.seg]
  | .seg => [.seg, .chkc]
  | .chkc => [.shup, .chks]
  | .shup => [.dau, .shdn]
  | .dau => [.dmu]
  | .dmu => [.clu]
  | .clu => [.shdn]
  | .shdn => [.dad, .chks]
  | .dad => [.dmd]
  | .dmd => [.cld]
  | .cld => [.chks]

/-! ## Render passes -/

/-- The colour of segment `k` in a pass: the alert colour in the redline regime, else its zone's
(43_strip_sequencer.md R204, 00_scope.md R15). -/
def passColor (c : Config) (redline : Bool) (k : Nat) : Color :=
  if redline then c.colorAlert
  else if k < c.nGreen then c.colorGreen
  else if k < c.nGreen + c.nYellow then c.colorYellow
  else c.colorRed

/-- The value segment `k` is told to show. -/
def passValue (c : Config) (redline : Bool) (k : Nat) : SegmentValue :=
  ⟨c.brightness, (passColor c redline k).r, (passColor c redline k).g, (passColor c redline k).b⟩

/-- The command words of a pass of `n` segments (43_strip_sequencer.md R204). -/
def passWords (c : Config) (redline : Bool) (n : Nat) : List StripWord :=
  stripWord 0 0 0 0 0 ::
    (List.range n).map fun k =>
      stripWord 1 c.brightness (passColor c redline k).r (passColor c redline k).g (passColor c redline k).b

/-- The strip's image after a pass of `n` segments (43_strip_sequencer.md R204). -/
def passImage (c : Config) (redline : Bool) (n : Nat) : List (Option SegmentValue) :=
  (List.range c.total).map fun k => some (if k < n then passValue c redline k else .off)

end Sys2Proof.Machine
end

