-- ==== Sys2Proof/Certificates/Slice0/Obligations.lean ====
section
/-! DEFINITION. The statements for the provers. A statement about one operation gives the place of the operation in its
format (which bit or code selects it) and the whole next state: every field it does not name is unchanged. -/

open Sys2Proof Sys2Proof.Machine

/-! ## The frequency counter -/

/-- 40_capture_estimator.md R130. -/
def Obligations.TickcCountsModuloWidth : Prop :=
  (∀ w : EventWord, Instr.tickc ∈ decodeEvent w ↔ w.getLsbD 6 = true) ∧
    ∀ s : State, exec .tickc s =
      .next { s with intervalCounter := (s.intervalCounter + 1) % 2 ^ s.cfg.cntW }

/-- 40_capture_estimator.md R132. -/
def Obligations.TachCapturesAndZeroesCounter : Prop :=
  (∀ w : EventWord, Instr.tach ∈ decodeEvent w ↔ w.getLsbD 4 = true) ∧
    ∀ s : State, exec .tach s =
      .next { s with captureSample := s.intervalCounter, intervalCounter := 0, speedReady := true }

/-- 40_capture_estimator.md R136. -/
def Obligations.ChksLoadsAndClearsReadySample : Prop :=
  decodePhase 0b0000 = .ok .chks ∧
    ∀ s : State,
      (s.speedReady = true →
        exec .chks s = .next { s with sampleLatch := s.captureSample, speedReady := false, phase := .est }) ∧
      (s.speedReady = false → exec .chks s = .next { s with phase := .chkc })

/-- 40_capture_estimator.md R141. -/
def Obligations.EstDividesRateBySample : Prop :=
  decodePhase 0b0001 = .ok .est ∧
    ∀ s : State, exec .est s = .next { s with
      speedValue := if s.sampleLatch = 0 then 0 else s.cfg.tickRate * 60 / (s.sampleLatch * s.cfg.ppr)
      phase := .map }

/-- The laws of the estimator the spec infers from R141 (40_capture_estimator.md R142 (a) to (c), R143), and (d) where the
rate constant is not 0 (log entry 12). -/
def Obligations.EstimatorLaws : Prop :=
  (∀ s : State, ∃ t, exec .est s = .next t ∧ t.speedValue ≤ s.cfg.tickRate * 60 / s.cfg.ppr ∧
    s.cfg.tickRate * 60 / s.cfg.ppr < 2 ^ s.cfg.speedW) ∧
  ∀ s₁ s₂ t₁ t₂ : State, s₁.cfg = s₂.cfg → exec .est s₁ = .next t₁ → exec .est s₂ = .next t₂ →
    (s₁.sampleLatch = 0 → t₁.speedValue = 0) ∧
    (1 ≤ s₁.sampleLatch → t₁.speedValue = s₁.cfg.tickRate * 60 / s₁.cfg.ppr / s₁.sampleLatch) ∧
    (1 ≤ s₁.sampleLatch → s₁.sampleLatch ≤ s₂.sampleLatch → t₂.speedValue ≤ t₁.speedValue) ∧
    (s₁.sampleLatch = 0 → s₂.sampleLatch = 1 → 1 ≤ s₁.cfg.tickRate * 60 / s₁.cfg.ppr → t₁.speedValue < t₂.speedValue)

/-- The value a capture stores, inferred by the spec (40_capture_estimator.md R134) from R130 and R132: between two
captures, or between `RESET` and the first one, with `n` `TICKC` operations in between in any interleaving, the sample
is `n mod 2^CNT_W`. -/
def Obligations.CaptureCountsTicksBetweenEdges : Prop :=
  ∀ (s : State) (ts : List Turn) (first : Turn) (w : EventWord), s.Inv →
    (first = .reset ∨ ∃ w₀, first = .event w₀ ∧ carries w₀ .tach = true) →
    (∀ t ∈ ts, t ≠ .reset ∧ requests .tach t = false) → carries w .tach = true →
    ∃ t, runTurns (first :: (ts ++ [.event w])) s = .next t ∧
      t.captureSample = (requestCount .tkc ts + (if carries w .tkc then 1 else 0)) % 2 ^ s.cfg.cntW

/-! ## The flash timer and the mapper -/

/-- 41_mapper_flash.md R150. -/
def Obligations.TickfTogglesOnMatch : Prop :=
  (∀ w : EventWord, Instr.tickf ∈ decodeEvent w ↔ w.getLsbD 5 = true) ∧
    ∀ s : State,
      ((s.flashTimer + 1) % 2 ^ s.cfg.ftW = s.flashCompare → exec .tickf s = .next { s with
        flashTimer := (s.flashTimer + 1) % 2 ^ s.cfg.ftW
        flashPhase := !s.flashPhase
        flashCompare := (s.flashCompare + s.cfg.flashPeriod) % 2 ^ s.cfg.ftW }) ∧
      ((s.flashTimer + 1) % 2 ^ s.cfg.ftW ≠ s.flashCompare → exec .tickf s = .next { s with
        flashTimer := (s.flashTimer + 1) % 2 ^ s.cfg.ftW })

/-- The flash law, inferred by the spec (41_mapper_flash.md R152) from R150 and the reset values, for every interleaving
with other turns and every legal configuration. -/
def Obligations.FlashSquareWave : Prop :=
  ∀ (c : LegalConfig) (ts : List Turn), Turn.reset ∉ ts →
    ∃ t, runTurns ts (State.resetOf c) = .next t ∧
      t.flashTimer = requestCount .tkf ts % 2 ^ c.ftW ∧
      t.flashPhase = decide (requestCount .tkf ts / c.flashPeriod % 2 = 1) ∧
      t.flashCompare = (requestCount .tkf ts / c.flashPeriod + 1) * c.flashPeriod % 2 ^ c.ftW

/-- 41_mapper_flash.md R156. -/
def Obligations.MapWritesRenderPlan : Prop :=
  decodePhase 0b0010 = .ok .map ∧
    ∀ s : State, exec .map s = .next { s with
      litCount := s.speedValue * s.cfg.total / (s.cfg.maxSpeed - s.cfg.redlineMargin)
      redline := decide (s.cfg.total < s.speedValue * s.cfg.total / (s.cfg.maxSpeed - s.cfg.redlineMargin))
      phaseLatch := s.flashPhase
      segEnd :=
        if s.cfg.total < s.speedValue * s.cfg.total / (s.cfg.maxSpeed - s.cfg.redlineMargin) then
          (if s.flashPhase then s.cfg.total else 0)
        else s.speedValue * s.cfg.total / (s.cfg.maxSpeed - s.cfg.redlineMargin)
      segIdx := 0
      phase := .clr }

/-- 41_mapper_flash.md R158: nothing in `MAP` wraps, what it writes fits `LIT_W` and `SEG_W`, and a configuration with a
narrower `LIT_W` is refused. That `SegEnd` fits a `SEG_W` other than 8 is the model's (log entry 6: `TOTAL < 2^SEG_W`). -/
def Obligations.MapResultsFitTheirRegisters : Prop :=
  (∀ s t : State, s.speedValue < 2 ^ s.cfg.speedW → exec .map s = .next t →
    s.speedValue * s.cfg.total < 2 ^ (s.cfg.speedW + 8) ∧ t.litCount = s.speedValue * s.cfg.total / s.cfg.ceil ∧
      t.litCount ≤ s.speedValue * s.cfg.total ∧ t.litCount < 2 ^ s.cfg.litW ∧
      t.segEnd ≤ 255 ∧ t.segEnd < 2 ^ s.cfg.segW) ∧
  ∀ c : Config, c.litW < c.speedW + 8 → c.isLegal = false

/-- The laws of the mapper the spec infers from R156: monotone (41_mapper_flash.md R160), and its boundaries (R161), where
`ceil(a / b)` is `(a + b - 1) / b`. -/
def Obligations.MapperLaws : Prop :=
  (∀ s₁ s₂ t₁ t₂ : State, s₁.cfg = s₂.cfg → exec .map s₁ = .next t₁ → exec .map s₂ = .next t₂ →
    s₁.speedValue ≤ s₂.speedValue → t₁.litCount ≤ t₂.litCount ∧ (t₁.redline = true → t₂.redline = true)) ∧
  (∀ s t : State, exec .map s = .next t →
    (∀ k, k ≤ t.litCount ↔ (k * s.cfg.ceil + s.cfg.total - 1) / s.cfg.total ≤ s.speedValue) ∧
    (t.redline = true ↔ ((s.cfg.total + 1) * s.cfg.ceil + s.cfg.total - 1) / s.cfg.total ≤ s.speedValue) ∧
    s.cfg.ceil < ((s.cfg.total + 1) * s.cfg.ceil + s.cfg.total - 1) / s.cfg.total ∧
    (s.speedValue = s.cfg.ceil → t.litCount = s.cfg.total) ∧
    (s.cfg.total < s.cfg.ceil → s.cfg.ceil - 1 ≤ s.speedValue → s.speedValue ≤ s.cfg.ceil + 1 →
      t.redline = false)) ∧
  ∀ x ∈ [(9599, 29, false), (9600, 30, false), (9601, 30, false), (9919, 30, false), (9920, 31, true), (320, 1, false),
      (319, 0, false)],
    ∃ t, exec .map { State.reset with speedValue := x.1 } = .next t ∧ t.litCount = x.2.1 ∧ t.redline = x.2.2

/-! ## The shift arbiter -/

/-- 42_shift_arbiter.md R170 and R172. -/
def Obligations.PaddleEdgesDriveOneRelay : Prop :=
  (∀ w : EventWord, Instr.svpu ∈ decodeEvent w ↔ w.getLsbD 3 = true) ∧
  (∀ w : EventWord, Instr.svpd ∈ decodeEvent w ↔ w.getLsbD 3 = false ∧ w.getLsbD 2 = true) ∧
    ∀ s : State,
      exec .svpu s = .next { s with actUp := true, actDn := false, reqUp := true, reqDn := false } ∧
      exec .svpd s = .next { s with actUp := false, actDn := true, reqUp := false, reqDn := true }

/-- 42_shift_arbiter.md R174 and R176. -/
def Obligations.ConfirmEdgesReleaseRelays : Prop :=
  (∀ w : EventWord, Instr.svcu ∈ decodeEvent w ↔
    w.getLsbD 3 = false ∧ w.getLsbD 2 = false ∧ w.getLsbD 1 = true) ∧
  (∀ w : EventWord, Instr.svcd ∈ decodeEvent w ↔
    w.getLsbD 3 = false ∧ w.getLsbD 2 = false ∧ w.getLsbD 1 = false ∧ w.getLsbD 0 = true) ∧
    ∀ s : State,
      exec .svcu s =
        .next { s with actUp := false, actDn := false, reqUp := false, reqDn := false, confirmUp := true } ∧
      exec .svcd s =
        .next { s with actUp := false, actDn := false, reqUp := false, reqDn := false, confirmDn := true }

/-- 42_shift_arbiter.md R178. -/
def Obligations.ChkcEntersShiftStepOnConfirm : Prop :=
  decodePhase 0b0101 = .ok .chkc ∧
    ∀ s : State,
      (s.confirmUp = true ∨ s.confirmDn = true → exec .chkc s = .next { s with phase := .shup }) ∧
      (s.confirmUp = false → s.confirmDn = false → exec .chkc s = .next { s with phase := .chks })

/-- 42_shift_arbiter.md R180. -/
def Obligations.ShupStepsGearUpUnderGuard : Prop :=
  decodePhase 0b0110 = .ok .shup ∧
    ∀ s : State,
      (s.confirmUp = true → s.gearIndex.toNat < 6 →
        ∃ t, exec .shup s = .next { s with gearIndex := t, phase := .dau } ∧ t.toNat = s.gearIndex.toNat + 1) ∧
      (¬(s.confirmUp = true ∧ s.gearIndex.toNat < 6) →
        exec .shup s = .next { s with
          confirmUp := if s.confirmUp = true ∧ s.cfg.clearOnBound = true then false else s.confirmUp
          phase := .shdn })

/-- 42_shift_arbiter.md R188. -/
def Obligations.ShdnStepsGearDownUnderGuard : Prop :=
  decodePhase 0b1010 = .ok .shdn ∧
    ∀ s : State,
      (s.confirmDn = true → 1 < s.gearIndex.toNat →
        ∃ t, exec .shdn s = .next { s with gearIndex := t, phase := .dad } ∧ t.toNat = s.gearIndex.toNat - 1) ∧
      (¬(s.confirmDn = true ∧ 1 < s.gearIndex.toNat) →
        exec .shdn s = .next { s with
          confirmDn := if s.confirmDn = true ∧ s.cfg.clearOnBound = true then false else s.confirmDn
          phase := .chks })

/-- 42_shift_arbiter.md R182 and R192: the assert write, at the new gear. -/
def Obligations.DisplayAssertOrsTableEntry : Prop :=
  decodePhase 0b0111 = .ok .dasu ∧ decodePhase 0b1011 = .ok .dasd ∧
    ∀ s : State, 1 ≤ s.gearIndex.toNat → s.dispOut < 2 ^ s.cfg.dispW →
      ∃ a, s.cfg.dispAssert[s.gearIndex.toNat - 1]? = some a ∧
        exec .dasu s = .next { s with dispOut := s.dispOut ||| a, phase := .dmu } ∧
        exec .dasd s = .next { s with dispOut := s.dispOut ||| a, phase := .dmd }

/-- 42_shift_arbiter.md R184 and R193: the mask write, the complement taken at `DISP_W` bits. -/
def Obligations.DisplayMaskReleasesTableEntry : Prop :=
  decodePhase 0b1000 = .ok .dmku ∧ decodePhase 0b1100 = .ok .dmkd ∧
    ∀ s : State, 1 ≤ s.gearIndex.toNat → s.dispOut < 2 ^ s.cfg.dispW →
      ∃ d, s.cfg.dispDeassert[s.gearIndex.toNat - 1]? = some d ∧
        exec .dmku s = .next { s with dispOut := s.dispOut &&& (2 ^ s.cfg.dispW - 1 - d), phase := .clu } ∧
        exec .dmkd s = .next { s with dispOut := s.dispOut &&& (2 ^ s.cfg.dispW - 1 - d), phase := .cld }

/-- 42_shift_arbiter.md R186 and R190. -/
def Obligations.ClearConfirmEndsDirection : Prop :=
  decodePhase 0b1001 = .ok .clru ∧ decodePhase 0b1101 = .ok .clrd ∧
    ∀ s : State,
      exec .clru s = .next { s with confirmUp := false, phase := .shdn } ∧
      exec .clrd s = .next { s with confirmDn := false, phase := .chks }

/-- What the display shows, inferred by the spec (42_shift_arbiter.md R187, first part): bit by bit, what the assert write
and the mask write leave, with events in between. -/
def Obligations.AssertThenMaskShowsDigit : Prop :=
  ∀ (s : State) (ts : List Turn) (a d : Nat), s.Inv → s.Widths → s.phase = .dau ∨ s.phase = .dad →
    s.cfg.dispAssert[s.gearIndex.toNat - 1]? = some a → s.cfg.dispDeassert[s.gearIndex.toNat - 1]? = some d →
    Turn.reset ∉ ts → seqCount ts = 2 →
    ∃ t, runTurns ts s = .next t ∧ t.gearIndex = s.gearIndex ∧
      (∀ i, t.dispOut.testBit i = ((s.dispOut.testBit i || a.testBit i) && !d.testBit i)) ∧
      (a &&& d = 0 → t.dispOut &&& a = a ∧ t.dispOut &&& d = 0 ∧
        ∀ i, a.testBit i = false → d.testBit i = false → t.dispOut.testBit i = s.dispOut.testBit i)

/-- What the display shows, inferred by the spec (42_shift_arbiter.md R187, second part): with tables complete over `m` at the
gears, the display shows the digit of the gear in every state outside a shift, and every step keeps that. -/
def Obligations.DisplayShowsGearKeptByStep : Prop :=
  ∀ (m : Nat) (s t : State), GearTablesComplete s.cfg.toConfig m → s.Inv → s.DisplayShows m →
    step s = .next t → t.DisplayShows m

/-- The shape of the shift step, inferred by the spec (42_shift_arbiter.md R196): its four orders when the sequencer runs
alone. -/
def Obligations.ShiftStepOrders : Prop :=
  ∀ s : State, s.Inv → s.phase = .chkc →
    (s.confirmUp = true ∨ s.confirmDn = true → ¬(s.confirmUp = true ∧ s.gearIndex.toNat < 6) →
      ¬(s.confirmDn = true ∧ 1 < s.gearIndex.toNat) →
      opsFrom 4 s = [.chkc, .shup, .shdn, .chks]) ∧
    (s.confirmUp = true → s.gearIndex.toNat < 6 → s.confirmDn = false →
      opsFrom 7 s = [.chkc, .shup, .dasu, .dmku, .clru, .shdn, .chks]) ∧
    (¬(s.confirmUp = true ∧ s.gearIndex.toNat < 6) → s.confirmDn = true → 1 < s.gearIndex.toNat →
      opsFrom 7 s = [.chkc, .shup, .shdn, .dasd, .dmkd, .clrd, .chks]) ∧
    (s.confirmUp = true → s.gearIndex.toNat < 6 → s.confirmDn = true →
      opsFrom 10 s = [.chkc, .shup, .dasu, .dmku, .clru, .shdn, .dasd, .dmkd, .clrd, .chks])

/-- A hazard the spec infers (70_reset_and_hazards.md R284 (b)): confirm edges of a direction in the window between its
`SHUP` (`SHDN`) and the end of its `CLRU` (`CLRD`) are absorbed, whatever else falls there. -/
def Obligations.ConfirmInsideWindowIsAbsorbed : Prop :=
  ∀ (s : State) (ts : List Turn), s.Inv → Turn.reset ∉ ts → seqCount ts = 2 →
    (s.phase = .dau →
      ∃ t, runTurns (ts ++ [.seq]) s = .next t ∧ t.phase = .shdn ∧ t.confirmUp = false ∧ t.gearIndex = s.gearIndex) ∧
    (s.phase = .dad →
      ∃ t, runTurns (ts ++ [.seq]) s = .next t ∧ t.phase = .chks ∧ t.confirmDn = false ∧ t.gearIndex = s.gearIndex)

/-- 70_reset_and_hazards.md R285: a confirm at a bound stays armed, unless `CLEAR_ON_BOUND`. At gear 6 it fires in the
iteration after a down-shift. Its mirror at gear 1 fires in the very iteration of the up-shift, because `SHUP` comes before
`SHDN` (70_reset_and_hazards.md R293; log entry 17). -/
def Obligations.ConfirmAtBoundStaysArmed : Prop :=
  ∀ s : State, s.Inv → s.phase = .chks → s.speedReady = false →
    (s.confirmDn = false → s.gearIndex.toNat = 6 →
      ∃ t₁ t₂ t₃, runTrace [.cu, .iter] s = .next t₁ ∧ runTrace [.cd, .iter] t₁ = .next t₂ ∧
        runTrace [.iter] t₂ = .next t₃ ∧
        t₁.gearIndex.toNat = 6 ∧ t₁.confirmUp = !s.cfg.clearOnBound ∧ t₁.dispOut = s.dispOut ∧
        t₂.gearIndex.toNat = 5 ∧ t₂.confirmDn = false ∧ t₂.confirmUp = !s.cfg.clearOnBound ∧
        t₃.gearIndex.toNat = (if s.cfg.clearOnBound then 5 else 6) ∧ t₃.confirmUp = false) ∧
    (s.confirmUp = false → s.gearIndex.toNat = 1 →
      ∃ t₁ t₂ t₃, runTrace [.cd, .iter] s = .next t₁ ∧ runTrace [.iter] t₁ = .next t₂ ∧
        runTrace [.cu, .iter] t₂ = .next t₃ ∧
        t₁.gearIndex.toNat = 1 ∧ t₁.confirmDn = !s.cfg.clearOnBound ∧ t₁.dispOut = s.dispOut ∧
        t₂.gearIndex.toNat = 1 ∧ t₂.confirmDn = !s.cfg.clearOnBound ∧ t₂.dispOut = s.dispOut ∧
        t₃.gearIndex.toNat = (if s.cfg.clearOnBound then 2 else 1) ∧ t₃.confirmUp = false ∧ t₃.confirmDn = false)

/-- A hazard the spec infers (70_reset_and_hazards.md R288): a driven relay stays driven under every turn but the edges that
release it and `RESET`. -/
def Obligations.RelayStaysDriven : Prop :=
  ∀ (s t : State) (turn : Turn), act turn s = .next t → turn ≠ .reset →
    (s.actUp = true →
      (∀ w, turn = .event w → Instr.svpd ∉ decodeEvent w ∧ Instr.svcu ∉ decodeEvent w ∧ Instr.svcd ∉ decodeEvent w) →
      t.actUp = true) ∧
    (s.actDn = true →
      (∀ w, turn = .event w → Instr.svpu ∉ decodeEvent w ∧ Instr.svcu ∉ decodeEvent w ∧ Instr.svcd ∉ decodeEvent w) →
      t.actDn = true)

/-! ## The strip -/

/-- 43_strip_sequencer.md R210 and R212: the effect of the two strip commands. -/
def Obligations.StripCommandsDrawOnStrip : Prop :=
  decodeStrip 0x000000000 = .ok .clr ∧
  (∀ l r g b : Byte, decodeStrip (stripWord 1 l r g b) = .ok (.seg l r g b)) ∧
  ∀ (s : State) (l r g b : Byte),
    exec .clr s = .next { s with strip := ⟨List.replicate s.cfg.total (some ⟨0, 0, 0, 0⟩), 0⟩ } ∧
    (s.strip.ptr < s.cfg.total → s.strip.image.length = s.cfg.total →
      ∃ image, exec (.seg l r g b) s = .next { s with strip := ⟨image, s.strip.ptr + 1⟩ } ∧
        image[s.strip.ptr]? = some (some ⟨l, r, g, b⟩) ∧
        ∀ k, k ≠ s.strip.ptr → image[k]? = s.strip.image[k]?) ∧
    (s.strip.ptr = s.cfg.total → exec (.seg l r g b) s = .next s)

/-- 43_strip_sequencer.md R200, with the effect of the emitted word on the strip. -/
def Obligations.SclrEmitsOneClear : Prop :=
  decodePhase 0b0011 = .ok .sclr ∧
    ∀ s : State, exec .sclr s = .next { s with
      phase := .seg
      stripOut := s.stripOut ++ [0x000000000]
      strip := ⟨List.replicate s.cfg.total (some ⟨0, 0, 0, 0⟩), 0⟩ }

/-- 43_strip_sequencer.md R202, with the effect of the emitted word on the strip. -/
def Obligations.SsegCommandsNextSegment : Prop :=
  decodePhase 0b0100 = .ok .sseg ∧
    ∀ s : State, s.segEnd ≤ s.cfg.total →
      (s.segIdx < s.segEnd →
        ∃ (color : Color) (strip : StripView),
          color = (if s.redline then s.cfg.colorAlert
            else if s.segIdx < s.cfg.nGreen then s.cfg.colorGreen
            else if s.segIdx < s.cfg.nGreen + s.cfg.nYellow then s.cfg.colorYellow
            else s.cfg.colorRed) ∧
          exec (.seg s.cfg.brightness color.r color.g color.b) s = .next { s with strip := strip } ∧
          exec .sseg s = .next { s with
            segIdx := s.segIdx + 1
            stripOut := s.stripOut ++ [stripWord 1 s.cfg.brightness color.r color.g color.b]
            strip := strip }) ∧
      (¬s.segIdx < s.segEnd → exec .sseg s = .next { s with phase := .chkc })

/-- 20_memory.md R71: a read outside a table is refused, never answered with a value. -/
def Obligations.ReadsOutsideTablesAreRefused : Prop :=
  ∀ s : State,
    (s.gearIndex = 0 →
      exec .dasu s = .refused (.indexOutsideTable .dispAssert) ∧
      exec .dasd s = .refused (.indexOutsideTable .dispAssert) ∧
      exec .dmku s = .refused (.indexOutsideTable .dispDeassert) ∧
      exec .dmkd s = .refused (.indexOutsideTable .dispDeassert)) ∧
    (s.redline = false → s.segIdx < s.segEnd → s.cfg.total ≤ s.segIdx →
      exec .sseg s = .refused (.indexOutsideTable .segColor))

/-- The shape of a pass, inferred by the spec (43_strip_sequencer.md R204, R206): whatever events fall inside it, a planned
pass emits one `CLR` and then `SegEnd` `SEG` words, and leaves the image those words draw. -/
def Obligations.PassIssuesItsPlan : Prop :=
  ∀ (s : State) (ts : List Turn), s.Inv → s.phase = .clr → s.segIdx = 0 → Turn.reset ∉ ts → seqCount ts = s.segEnd + 2 →
    ∃ t, runTurns ts s = .next t ∧ t.phase = .chkc ∧
      t.stripOut = s.stripOut ++ passWords s.cfg.toConfig s.redline s.segEnd ∧
      t.strip = ⟨passImage s.cfg.toConfig s.redline s.segEnd, s.segEnd⟩ ∧
      t.segIdx = s.segEnd ∧ t.segEnd = s.segEnd

/-- The three kinds of pass, inferred by the spec (41_mapper_flash.md R157, R163), from `MAP` to `CHKC`, whatever events fall
after `MAP`. -/
def Obligations.PassByRegime : Prop :=
  ∀ (s : State) (ts : List Turn) (lit : Nat), s.Inv → s.phase = .map →
    lit = s.speedValue * s.cfg.total / s.cfg.ceil → Turn.reset ∉ ts →
    (lit ≤ s.cfg.total → seqCount ts = lit + 2 →
      ∃ t, runTurns (.seq :: ts) s = .next t ∧ t.phase = .chkc ∧ t.redline = false ∧ t.segEnd = lit ∧
        t.stripOut = s.stripOut ++ passWords s.cfg.toConfig false lit ∧
        t.strip.image = passImage s.cfg.toConfig false lit) ∧
    (s.cfg.total < lit → s.flashPhase = true → seqCount ts = s.cfg.total + 2 →
      ∃ t, runTurns (.seq :: ts) s = .next t ∧ t.phase = .chkc ∧ t.redline = true ∧ t.segEnd = s.cfg.total ∧
        t.stripOut = s.stripOut ++ passWords s.cfg.toConfig true s.cfg.total ∧
        t.strip.image = passImage s.cfg.toConfig true s.cfg.total) ∧
    (s.cfg.total < lit → s.flashPhase = false → seqCount ts = 2 →
      ∃ t, runTurns (.seq :: ts) s = .next t ∧ t.phase = .chkc ∧ t.redline = true ∧ t.segEnd = 0 ∧
        t.stripOut = s.stripOut ++ [0x000000000] ∧
        t.strip.image = List.replicate s.cfg.total (some ⟨0, 0, 0, 0⟩))

/-- Idempotence, inferred by the spec (41_mapper_flash.md R162): two passes from the same speed and flash phase, each run from
`MAP` to the `CHKC` after its plan, emit the same words, whatever else differs and whatever events fall inside them. -/
def Obligations.SamePlanSameCommands : Prop :=
  ∀ (s₁ s₂ : State) (ts₁ ts₂ : List Turn) (plan : Nat), s₁.Inv → s₂.Inv → s₁.cfg = s₂.cfg →
    s₁.phase = .map → s₂.phase = .map → s₁.speedValue = s₂.speedValue → s₁.flashPhase = s₂.flashPhase →
    plan = segEndOf s₁.cfg.toConfig (litOf s₁.cfg.toConfig s₁.speedValue) s₁.flashPhase →
    Turn.reset ∉ ts₁ → Turn.reset ∉ ts₂ → seqCount ts₁ = plan + 2 → seqCount ts₂ = plan + 2 →
    ∃ t₁ t₂ words, runTurns (.seq :: ts₁) s₁ = .next t₁ ∧ runTurns (.seq :: ts₂) s₂ = .next t₂ ∧
      t₁.phase = .chkc ∧ t₂.phase = .chkc ∧ t₁.segEnd = plan ∧ t₂.segEnd = plan ∧ t₁.redline = t₂.redline ∧
      t₁.litCount = t₂.litCount ∧ t₁.phaseLatch = t₂.phaseLatch ∧
      t₁.stripOut = s₁.stripOut ++ words ∧ t₂.stripOut = s₂.stripOut ++ words

/-- The shape of `StripOut`, inferred by the spec (43_strip_sequencer.md R204): in every execution from reset, every `SEG`
follows a `CLR` with fewer than `TOTAL` `SEG` words between, and no reserved word is emitted. -/
def Obligations.StripOutIsARunOfPasses : Prop :=
  ∀ (c : LegalConfig) (ts : List Turn), ∃ t, runTurns ts (State.resetOf c) = .next t ∧ t.StripShape

/-- 20_memory.md R75: the strip's view stays the function of `StripOut` that the spec says it is. -/
def Obligations.StripViewFollowsStripOut : Prop :=
  ∀ s t : State, s.StripAgrees → step s = .next t → t.StripAgrees

/-- Inferred by the spec (43_strip_sequencer.md R207): no more passes than tachometer edges since reset. -/
def Obligations.NoMorePassesThanEdges : Prop :=
  ∀ (c : LegalConfig) (ts : List Turn), Turn.reset ∉ ts →
    ∃ t, runTurns ts (State.resetOf c) = .next t ∧ t.stripOut.count 0x000000000 ≤ requestCount .tach ts

/-- A hazard the spec infers (70_reset_and_hazards.md R282, 60_exceptions.md R252): with no pulse pending and none arriving,
nothing is estimated and nothing is sent, however long the sequencer runs. -/
def Obligations.NoPulseNoPicture : Prop :=
  ∀ (s : State) (ts : List Turn), s.Inv → s.phase = .chks → s.speedReady = false →
    (∀ t ∈ ts, t ≠ .reset ∧ requests .tach t = false) →
    ∃ t, runTurns ts s = .next t ∧ t.speedValue = s.speedValue ∧ t.stripOut = s.stripOut ∧ t.strip = s.strip ∧
      t.litCount = s.litCount ∧ t.speedReady = false

/-! ## Event words, decoding and encoding -/

/-- 44_step_and_loop.md R224. -/
def Obligations.NopeChangesNothing : Prop :=
  decodeEvent 0b0000000 = [.nope] ∧ ∀ s : State, exec .nope s = .next s ∧ act (.event 0b0000000) s = .next s

/-- 30_encoding.md R101 and R103: an event word decodes to every row of the opcode table it matches, in the table's
order, and its edge field to at most one operation, by the fixed priority; the operations run in that order. That the word 0 decodes to
the row `NOPE` (R104), where R101 has an empty list, is the model's reading (log entry 16). -/
def Obligations.EventWordDecodesToItsRows : Prop :=
  ∀ w : EventWord,
    (∀ s, act (.event w) s = runOps (decodeEvent w) s) ∧
    (decodeEvent w).map Instr.mnemonic = (opcodeRows.filter (·.accepts (.ev w))).map OpcodeRow.mnemonic ∧
    (decodeEvent w).filter (· ∈ [Instr.svpu, .svpd, .svcu, .svcd]) =
      ([[], [.svcd], [.svcu], [.svcu], [.svpd], [.svpd], [.svpd], [.svpd],
        [.svpu], [.svpu], [.svpu], [.svpu], [.svpu], [.svpu], [.svpu], [.svpu]] : List (List Instr))[w.toNat % 16]!

/-- Words written out from the tables of 30_encoding.md decode to their instructions. -/
def Obligations.SampleWordsDecode : Prop :=
  decode (.ev 0b1011001) = .ok [.tickc, .tach, .svpu] ∧ decode (.ev 0b0100000) = .ok [.tickf] ∧
  decode (.ph 0b0010) = .ok [.map] ∧ decode (.ph 0b1100) = .ok [.dmkd] ∧
  decode (.sc 0b100010000000000001111111100000000) = .ok [.seg 0x10 0x00 0xFF 0x00] ∧
  decode (.sc 0) = .ok [.clr] ∧ decode (.pin 1) = .ok [.reset]

/-- 30_encoding.md R115: which words are refused, and by which name. -/
def Obligations.ReservedWordsAreRefused : Prop :=
  (∀ w : EventWord, decode (.ev w) = .ok (decodeEvent w)) ∧
  (∀ c : PhaseCode, decode (.ph c) = .error .reservedPhaseCode ↔ c = 14 ∨ c = 15) ∧
  (∀ w : StripWord, decode (.sc w) = .error .reservedStripWord ↔ w.getLsbD 32 = false ∧ w ≠ 0) ∧
  ∀ (c : CodeWord), (∃ is, decode c = .ok is) ↔ c.wellFormed = true

/-- Decoding an encoded instruction gives it back, for every instruction and every operand. -/
def Obligations.DecodeEncodeAgree : Prop :=
  ∀ i : Instr, i.wellFormed = true → decode (encode i) = .ok [i]

/-- Outside the event format a word has one reading: a word that decodes to an instruction is its encoding. -/
def Obligations.EncodeDecodeAgree : Prop :=
  ∀ (c : CodeWord) (i : Instr), c.format ≠ .ev → decode c = .ok [i] → encode i = c

/-- Inferred by the spec (44_step_and_loop.md R223) from R222: an event word acts as its operations' own words in sequence; a
second edge bit in one word does not act, in a second word it does. -/
def Obligations.EventWordActsAsItsOperations : Prop :=
  (∀ (w : EventWord) (s : State), ∃ ws : List EventWord,
    ws.map (fun v => CodeWord.ev v) = (decodeEvent w).map encode ∧
      act (.event w) s = runTurns (ws.map Turn.event) s) ∧
  ∀ s : State,
    act (.event (eventWord [.pu, .cu])) s = exec .svpu s ∧
      runTurns [.event (eventWord [.pu]), .event (eventWord [.cu])] s = runOps [.svpu, .svcu] s

/-- 44_step_and_loop.md R222: the fixed order inside one word, and its consequence (b): the order of two operations of
different groups cannot be observed, but for `TICKC` before `TACH`. -/
def Obligations.EventWordOrder : Prop :=
  (∀ (w : EventWord) (s : State),
    act (.event w) s =
      andThen (if w.getLsbD 6 then exec .tickc s else .next s) fun s₁ =>
      andThen (if w.getLsbD 5 then exec .tickf s₁ else .next s₁) fun s₂ =>
      andThen (if w.getLsbD 4 then exec .tach s₂ else .next s₂) fun s₃ =>
      if w.getLsbD 3 then exec .svpu s₃
      else if w.getLsbD 2 then exec .svpd s₃
      else if w.getLsbD 1 then exec .svcu s₃
      else if w.getLsbD 0 then exec .svcd s₃
      else .next s₃) ∧
  ∀ (i j : Instr) (s : State),
    (i, j) ∈ [(Instr.tickc, Instr.tickf), (.tickf, .tach)] ∨
      (i ∈ [Instr.tickc, .tickf, .tach] ∧ j ∈ [Instr.svpu, .svpd, .svcu, .svcd]) →
    runOps [i, j] s = runOps [j, i] s

/-! ## The step, the loop, the contexts -/

/-- A step runs the decoded operation on the state with its turn taken off: the operations of the event word, the
micro-operation whose code `Phase` holds, or `RESET`. With an empty schedule the supply gives the turn: the sequencer's, or
a free one (44_step_and_loop.md R220, R221; the schedule and the supply are the model's, log entry 3). -/
def Obligations.StepRunsDecodedOperation : Prop :=
  ∀ (s : State) (rest : List Turn),
    (∀ i, decodePhase s.phase.code = .ok i →
      step { s with schedule := [], supply := .sequencer } = exec i { s with schedule := [], supply := .sequencer } ∧
      step { s with schedule := .seq :: rest } = exec i { s with schedule := rest }) ∧
    (∃ i, decodePhase s.phase.code = .ok i) ∧
    (∀ w, step { s with schedule := .event w :: rest } = runOps (decodeEvent w) { s with schedule := rest }) ∧
    (∀ i w, decode (.ev w) = .ok [i] →
      step { s with schedule := .event w :: rest } = exec i { s with schedule := rest }) ∧
    decodePin 1 = .ok .reset ∧
    step { s with schedule := .reset :: rest } = exec .reset { s with schedule := rest } ∧
    (∀ n, step { s with schedule := [], supply := .free n } =
      step { s with schedule := [Config.openTurn n], supply := .free (n + 1) })

/-- Every finite sequence of turns is an execution of the machine's steps, and what a turn does never depends on the
turns to come; and from every state, for any number of steps, the machine runs the turns its schedule and then its supply
give (00_scope.md R11, 44_step_and_loop.md R220; the schedule and the supply are the model's, log entry 3). -/
def Obligations.RunFollowsTurns : Prop :=
  (∀ (ts : List Turn) (s : State),
    Host.Core.run Sys2Proof.core ts.length { s with schedule := ts ++ s.schedule } = runTurns ts s) ∧
  ∀ (n : Nat) (s : State),
    Host.Core.run Sys2Proof.core n s = runTurns ((List.range n).map s.turnAt) (s.dropTurns n)

/-- 60_exceptions.md R250: every step from a state with the invariants completes. -/
def Obligations.EveryStepCompletes : Prop :=
  ∀ s : State, s.Inv → ∃ t, step s = .next t

/-- The invariants the spec infers (10_state.md R46): every step keeps them, from every state that has them. -/
def Obligations.InvariantsKeptByStep : Prop :=
  ∀ s t : State, s.Inv → step s = .next t → t.Inv

/-- The reset state has the invariants in every legal configuration, and with tables complete at the gears it shows the reset gear at
once (inferred by the spec, 70_reset_and_hazards.md R271, from R270). -/
def Obligations.InvariantsHoldAtReset : Prop :=
  ∀ c : LegalConfig, (State.resetOf c).Inv ∧ (State.resetOf c).Widths ∧ (State.resetOf c).PlanAgrees ∧
    (State.resetOf c).StripAgrees ∧ ∀ m, GearTablesComplete c.toConfig m → (State.resetOf c).DisplayShows m

/-- Every register keeps to its width, the plan to its sources, and the configuration never changes (00_scope.md R5, R9;
10_state.md R32, R47). That `SegEnd` and `SegIdx` keep to `SEG_W` rests on `TOTAL < 2^SEG_W` (log entry 6). -/
def Obligations.WidthsAndPlanKeptByStep : Prop :=
  ∀ s t : State, s.Widths → s.PlanAgrees → step s = .next t → t.Widths ∧ t.PlanAgrees ∧ t.cfg = s.cfg

/-- 10_state.md R41: a sequencer step goes to a successor of its phase; 44_step_and_loop.md R228: an event step leaves
`Phase` alone. -/
def Obligations.PhaseFollowsSuccessorTable : Prop :=
  ∀ s t : State,
    (act .seq s = .next t → t.phase ∈ successorsOf s.phase) ∧
    (∀ w, act (.event w) s = .next t → t.phase = s.phase)

/-- The write discipline the spec infers (10_state.md R45), the event side: an event step completes in every state, writes only
the elements of its context, and only sets the hand-off flags. -/
def Obligations.EventStepFrame : Prop :=
  ∀ (w : EventWord) (s : State), ∃ t, act (.event w) s = .next t ∧
    t = { s with
      intervalCounter := t.intervalCounter, captureSample := t.captureSample, speedReady := t.speedReady
      flashTimer := t.flashTimer, flashCompare := t.flashCompare, flashPhase := t.flashPhase
      actUp := t.actUp, actDn := t.actDn, reqUp := t.reqUp, reqDn := t.reqDn
      confirmUp := t.confirmUp, confirmDn := t.confirmDn } ∧
    (s.speedReady = true → t.speedReady = true) ∧ (s.confirmUp = true → t.confirmUp = true) ∧
    (s.confirmDn = true → t.confirmDn = true)

/-- The write discipline the spec infers (10_state.md R45), the sequencer's side: a sequencer step writes only the elements of
its context, and only clears the hand-off flags. -/
def Obligations.SequencerStepFrame : Prop :=
  ∀ s t : State, act .seq s = .next t →
    t = { s with
      sampleLatch := t.sampleLatch, speedValue := t.speedValue, litCount := t.litCount, redline := t.redline
      phaseLatch := t.phaseLatch, segEnd := t.segEnd, segIdx := t.segIdx, speedReady := t.speedReady
      confirmUp := t.confirmUp, confirmDn := t.confirmDn, gearIndex := t.gearIndex, dispOut := t.dispOut
      phase := t.phase, stripOut := t.stripOut, strip := t.strip } ∧
    (t.speedReady = true → s.speedReady = true) ∧ (t.confirmUp = true → s.confirmUp = true) ∧
    (t.confirmDn = true → s.confirmDn = true)

/-- The hand-off the spec infers (20_memory.md R85 (a), (b)): a captured sample stays pending, and stays the latest one, until
the next `CHKS` takes it. -/
def Obligations.PendingSampleReachesChks : Prop :=
  ∀ (s t u : State) (turn : Turn), s.speedReady = true → act turn s = .next t →
    (turn ≠ .reset → requests .tach turn = false → (turn = .seq → s.phase ≠ .chks) →
      t.speedReady = true ∧ t.captureSample = s.captureSample) ∧
    (turn = .seq → s.phase = .chks → t.sampleLatch = s.captureSample ∧ t.speedReady = false ∧ t.phase = .est) ∧
    (∀ w, carries w .tach = true → act (.event w) s = .next u → u.speedReady = true ∧
      u.captureSample = if carries w .tkc then (s.intervalCounter + 1) % 2 ^ s.cfg.cntW else s.intervalCounter)

/-- The order the spec infers (44_step_and_loop.md R226): the micro-operations of an iteration up to `CHKC`, when the sequencer
runs alone. -/
def Obligations.IterationOrder : Prop :=
  ∀ s : State, s.Inv → s.phase = .chks →
    (s.speedReady = false → opsFrom 2 s = [.chks, .chkc]) ∧
    (s.speedReady = true → ∃ t, runTurns [.seq, .seq, .seq] s = .next t ∧
      opsFrom (t.segEnd + 6) s = [.chks, .est, .map, .sclr] ++ List.replicate (t.segEnd + 1) .sseg ++ [.chkc])

/-- The bounds the spec infers from the successor table (44_step_and_loop.md R226, R227 (a)): whatever events fall inside
it, an iteration, that is the run up to the first return to `P_CHKS`, has 2 to `TOTAL + 14` sequencer steps; and from any
point the next `CHKS` is at most `TOTAL + 14` sequencer steps away. -/
def Obligations.IterationEndsWithinBound : Prop :=
  (∀ (s : State) (ts : List Turn), s.Inv → s.phase = .chks → Turn.reset ∉ ts → s.cfg.total + 14 ≤ seqCount ts →
    ∃ pre post t, ts = pre ++ post ∧ 2 ≤ seqCount pre ∧ seqCount pre ≤ s.cfg.total + 14 ∧
      runTurns pre s = .next t ∧ t.phase = .chks ∧
      ∀ p q, pre = p ++ q → q ≠ [] → 1 ≤ seqCount p → ∃ u, runTurns p s = .next u ∧ u.phase ≠ .chks) ∧
  ∀ (s : State) (ts : List Turn), s.Inv → Turn.reset ∉ ts → s.cfg.total + 13 ≤ seqCount ts →
    ∃ pre post t, ts = pre ++ post ∧ seqCount pre ≤ s.cfg.total + 13 ∧ runTurns pre s = .next t ∧ t.phase = .chks

/-- Every finite execution from reset, with any event words, sequencer steps and resets in any order, completes and ends with
the invariants; and every endless sequence of turns, fair or not, has its infinite execution, with the invariants in every
state (inferred by the spec, 10_state.md R46, 42_shift_arbiter.md R194, R195; 44_step_and_loop.md R221). Within `Widths`, that
`SegEnd` and `SegIdx` keep to `SEG_W` rests on log entry 6; the strip's fold is the one of log entry 8. -/
def Obligations.EveryExecutionIsSafe : Prop :=
  (∀ (c : LegalConfig) (ts : List Turn),
    ∃ t, runTurns ts (State.resetOf c) = .next t ∧ t.Inv ∧ t.Widths ∧ t.StripAgrees) ∧
  ∀ (c : LegalConfig) (τ : Nat → Turn),
    ∃ σ, IsInfiniteExecution c τ σ ∧ ∀ n, (σ n).Inv ∧ (σ n).Widths ∧ (σ n).StripAgrees

/-- What fairness gives, and what is lost without it (44_step_and_loop.md R221). In an infinite execution with no `RESET` from
`n` on: if it is fair, a pending capture stays pending until a `CHKS` takes it and is then rendered, and a set confirm flag
stays set until it has reached the display (or is absorbed by the shift in progress, 70_reset_and_hazards.md R284) or is
ignored at the bound. If the sequencer takes no step from `n` on, the elements only it writes (10_state.md R45) and the
strip never change, whatever events come: `SampleLatch`, `SpeedValue`, `LitCount`, `Redline`, `PhaseLatch`, `SegEnd`,
`SegIdx`, `GearIndex`, `DispOut`, `Phase`, `StripOut` and the strip's view. -/
def Obligations.FairExecutionsServeCapturesAndConfirms : Prop :=
  ∀ (c : LegalConfig) (τ : Nat → Turn) (σ : Nat → State) (n : Nat), IsInfiniteExecution c τ σ →
    (∀ m, n ≤ m → τ m ≠ .reset) →
    (Fair τ →
      ((σ n).speedReady = true →
        ∃ m k, n ≤ m ∧ m < k ∧ (∀ j, n ≤ j → j ≤ m → (σ j).speedReady = true) ∧ τ m = .seq ∧ (σ m).phase = .chks ∧
          (σ k).phase = .chkc ∧ (σ k).sampleLatch = (σ m).captureSample ∧
          (σ k).speedValue =
            (if (σ m).captureSample = 0 then 0 else c.tickRate * 60 / ((σ m).captureSample * c.ppr)) ∧
          (σ k).litCount = (σ k).speedValue * c.total / c.ceil ∧
          (σ k).redline = decide (c.total < (σ k).litCount) ∧ (σ k).PlanAgrees ∧
          (∃ i, m < i ∧ i < k ∧ τ i = .seq ∧ (σ i).phase = .map ∧ (σ k).phaseLatch = (σ i).flashPhase) ∧
          (σ k).stripOut = (σ m).stripOut ++ passWords c.toConfig (σ k).redline (σ k).segEnd ∧
          (σ k).strip.image = passImage c.toConfig (σ k).redline (σ k).segEnd) ∧
      ((σ n).confirmUp = true →
        ∃ m, n ≤ m ∧ (∀ j, n ≤ j → j ≤ m → (σ j).confirmUp = true) ∧ τ m = .seq ∧
          ((σ m).phase = .shup ∧ (σ m).gearIndex.toNat = 6 ∨
            (σ m).phase = .clu ∧ (σ (m + 1)).confirmUp = false ∧
              ∀ bits, GearTablesComplete c.toConfig bits →
                dispAssertAt c.toConfig (σ m).gearIndex = some (σ m).dispOut)) ∧
      ((σ n).confirmDn = true →
        ∃ m, n ≤ m ∧ (∀ j, n ≤ j → j ≤ m → (σ j).confirmDn = true) ∧ τ m = .seq ∧
          ((σ m).phase = .shdn ∧ (σ m).gearIndex.toNat = 1 ∨
            (σ m).phase = .cld ∧ (σ (m + 1)).confirmDn = false ∧
              ∀ bits, GearTablesComplete c.toConfig bits →
                dispAssertAt c.toConfig (σ m).gearIndex = some (σ m).dispOut))) ∧
    ((∀ m, n ≤ m → τ m ≠ .seq) →
      ∀ m, n ≤ m → (σ m).sampleLatch = (σ n).sampleLatch ∧ (σ m).speedValue = (σ n).speedValue ∧
        (σ m).litCount = (σ n).litCount ∧ (σ m).redline = (σ n).redline ∧ (σ m).phaseLatch = (σ n).phaseLatch ∧
        (σ m).segEnd = (σ n).segEnd ∧ (σ m).segIdx = (σ n).segIdx ∧ (σ m).gearIndex = (σ n).gearIndex ∧
        (σ m).dispOut = (σ n).dispOut ∧ (σ m).phase = (σ n).phase ∧ (σ m).stripOut = (σ n).stripOut ∧
        (σ m).strip = (σ n).strip)

/-! ## Reset -/

/-- 70_reset_and_hazards.md R270 and 10_state.md R50: the value of every element after `RESET`, from any state. -/
def Obligations.ResetGivesEveryElement : Prop :=
  ∀ s : State, ∃ a d, s.cfg.dispAssert[s.cfg.gearReset.toNat - 1]? = some a ∧
    s.cfg.dispDeassert[s.cfg.gearReset.toNat - 1]? = some d ∧
    exec .reset s = .next {
      cfg := s.cfg, schedule := s.schedule, supply := s.supply
      intervalCounter := 0, captureSample := 0, speedReady := false, sampleLatch := 0, speedValue := 0
      flashTimer := 0, flashCompare := s.cfg.flashPeriod, flashPhase := false, litCount := 0, redline := false
      phaseLatch := false, segEnd := 0, segIdx := 0, actUp := false, actDn := false, reqUp := false, reqDn := false
      confirmUp := false, confirmDn := false, gearIndex := s.cfg.gearReset
      dispOut := (0 ||| a) &&& (2 ^ s.cfg.dispW - 1 - d)
      phase := .chks, stripOut := [], strip := ⟨List.replicate s.cfg.total none, 0⟩ }

/-- From any state: reset, `n` capture ticks, one edge, one iteration. The strip gets the one pass that `n` calls for,
wrapped at the counter's width (70_reset_and_hazards.md R280, R281; the chain of 40_capture_estimator.md to
43_strip_sequencer.md). -/
def Obligations.CaptureToStripEndToEnd : Prop :=
  ∀ (s : State) (n m speed lit : Nat), m = n % 2 ^ s.cfg.cntW →
    speed = (if m = 0 then 0 else s.cfg.tickRate * 60 / (m * s.cfg.ppr)) →
    lit = speed * s.cfg.total / s.cfg.ceil →
    ∃ t, runTrace [.reset, .pulse n, .iter] s = .next t ∧ t.phase = .chks ∧ t.captureSample = m ∧ t.sampleLatch = m ∧
      t.speedReady = false ∧ t.speedValue = speed ∧ t.litCount = lit ∧ t.gearIndex = s.cfg.gearReset ∧
      t.stripOut = passWords s.cfg.toConfig false (if lit ≤ s.cfg.total then lit else 0)
end

