-- ==== Sys2Proof/Laws/Config.lean ====
section
/-! SUPPORT. What a legal configuration gives, one lemma per check, and the table reads that it makes total. -/

namespace Sys2Proof

theorem Config.isLegal_iff (c : Config) :
    c.isLegal = true ↔ c.tickRateOk = true ∧ c.pprOk = true ∧ c.ceilOk = true ∧ c.totalOk = true ∧
      c.speedWidthOk = true ∧ c.litWidthOk = true ∧ c.segWidthOk = true ∧ c.flashPeriodOk = true ∧
      c.gearResetOk = true ∧ c.tablesOk = true := by
  simp only [Config.isLegal, Bool.and_eq_true, and_assoc]

namespace LegalConfig

variable (c : LegalConfig)

theorem tickRate_pos : 1 ≤ c.tickRate := by
  simpa [Config.tickRateOk] using ((Config.isLegal_iff _).1 c.legal).1

theorem ppr_range : 1 ≤ c.ppr ∧ c.ppr < 2 ^ 8 := by
  simpa [Config.pprOk] using ((Config.isLegal_iff _).1 c.legal).2.1

theorem margin_lt : c.redlineMargin < c.maxSpeed := by
  simpa [Config.ceilOk] using ((Config.isLegal_iff _).1 c.legal).2.2.1

theorem ceil_pos : 1 ≤ c.ceil := by
  have := c.margin_lt
  simp only [Config.ceil]; omega

theorem total_range : 1 ≤ c.total ∧ c.total ≤ 255 := by
  simpa [Config.totalOk] using ((Config.isLegal_iff _).1 c.legal).2.2.2.1

theorem rateConst_lt : c.rateNum / c.ppr < 2 ^ c.speedW := by
  simpa [Config.speedWidthOk] using ((Config.isLegal_iff _).1 c.legal).2.2.2.2.1

theorem litW_ge : c.speedW + 8 ≤ c.litW := by
  simpa [Config.litWidthOk] using ((Config.isLegal_iff _).1 c.legal).2.2.2.2.2.1

theorem total_lt_segW : c.total < 2 ^ c.segW := by
  simpa [Config.segWidthOk] using ((Config.isLegal_iff _).1 c.legal).2.2.2.2.2.2.1

theorem flashPeriod_range : 1 ≤ c.flashPeriod ∧ c.flashPeriod < 2 ^ c.ftW := by
  simpa [Config.flashPeriodOk] using ((Config.isLegal_iff _).1 c.legal).2.2.2.2.2.2.2.1

theorem gearReset_range : 1 ≤ c.gearReset.toNat ∧ c.gearReset.toNat ≤ 6 := by
  simpa [Config.gearResetOk, gearMin, gearMax, BitVec.le_def] using ((Config.isLegal_iff _).1 c.legal).2.2.2.2.2.2.2.2.1

theorem tables_ok : tableOk c.dispW c.dispAssert = true ∧ tableOk c.dispW c.dispDeassert = true := by
  simpa [Config.tablesOk] using ((Config.isLegal_iff _).1 c.legal).2.2.2.2.2.2.2.2.2

end LegalConfig

namespace Machine

/-- A legal table has an entry, of the table's width, at every index from 1 to 10 (20_memory.md R71). -/
theorem tableEntry_of_ok {w i : Nat} {t : List Nat} (h : tableOk w t = true) (low : 1 ≤ i) (high : i ≤ 10) :
    ∃ a, tableEntry t i = some a ∧ t[i - 1]? = some a ∧ a < 2 ^ w := by
  simp only [tableOk, Bool.and_eq_true, decide_eq_true_eq, List.all_eq_true] at h
  have hlt : i - 1 < t.length := by omega
  refine ⟨t[i - 1], ?_, List.getElem?_eq_getElem hlt, h.2 _ (List.getElem_mem hlt)⟩
  simp [tableEntry, Nat.ne_of_gt low, List.getElem?_eq_getElem hlt]

/-- The assert table answers at every gear from 1 up. -/
theorem dispAssertAt_some (c : LegalConfig) {g : Gear} (low : 1 ≤ g.toNat) :
    ∃ a, dispAssertAt c.toConfig g = some a ∧ c.dispAssert[g.toNat - 1]? = some a ∧ a < 2 ^ c.dispW :=
  tableEntry_of_ok c.tables_ok.1 low (by have := g.isLt; omega)

/-- The de-assert table answers at every gear from 1 up. -/
theorem dispDeassertAt_some (c : LegalConfig) {g : Gear} (low : 1 ≤ g.toNat) :
    ∃ d, dispDeassertAt c.toConfig g = some d ∧ c.dispDeassert[g.toNat - 1]? = some d ∧ d < 2 ^ c.dispW :=
  tableEntry_of_ok c.tables_ok.2 low (by have := g.isLt; omega)

/-- The payload's colour is defined at every segment of the strip (20_memory.md R71). -/
theorem payloadColor_some (c : Config) (redline : Bool) {i : Nat} (h : i < c.total) :
    payloadColor c redline i = some (if redline then c.colorAlert else zoneColor c i) := by
  cases redline <;> simp [payloadColor, segColorAt, h]

end Machine

end Sys2Proof
end

