-- ==== Sys2Proof/Laws/State.lean ====
section
/-! SUPPORT. One lemma per field per named update of the state, true by `rfl`, so that no proof unfolds an update. -/

namespace Sys2Proof.Machine

variable (s : State)

/-! ## `goto` -/

@[simp] theorem State.goto_cfg (p : Phase) : (s.goto p).cfg = s.cfg := rfl
@[simp] theorem State.goto_intervalCounter (p : Phase) : (s.goto p).intervalCounter = s.intervalCounter := rfl
@[simp] theorem State.goto_captureSample (p : Phase) : (s.goto p).captureSample = s.captureSample := rfl
@[simp] theorem State.goto_speedReady (p : Phase) : (s.goto p).speedReady = s.speedReady := rfl
@[simp] theorem State.goto_sampleLatch (p : Phase) : (s.goto p).sampleLatch = s.sampleLatch := rfl
@[simp] theorem State.goto_speedValue (p : Phase) : (s.goto p).speedValue = s.speedValue := rfl
@[simp] theorem State.goto_flashTimer (p : Phase) : (s.goto p).flashTimer = s.flashTimer := rfl
@[simp] theorem State.goto_flashCompare (p : Phase) : (s.goto p).flashCompare = s.flashCompare := rfl
@[simp] theorem State.goto_flashPhase (p : Phase) : (s.goto p).flashPhase = s.flashPhase := rfl
@[simp] theorem State.goto_litCount (p : Phase) : (s.goto p).litCount = s.litCount := rfl
@[simp] theorem State.goto_redline (p : Phase) : (s.goto p).redline = s.redline := rfl
@[simp] theorem State.goto_phaseLatch (p : Phase) : (s.goto p).phaseLatch = s.phaseLatch := rfl
@[simp] theorem State.goto_segEnd (p : Phase) : (s.goto p).segEnd = s.segEnd := rfl
@[simp] theorem State.goto_segIdx (p : Phase) : (s.goto p).segIdx = s.segIdx := rfl
@[simp] theorem State.goto_actUp (p : Phase) : (s.goto p).actUp = s.actUp := rfl
@[simp] theorem State.goto_actDn (p : Phase) : (s.goto p).actDn = s.actDn := rfl
@[simp] theorem State.goto_reqUp (p : Phase) : (s.goto p).reqUp = s.reqUp := rfl
@[simp] theorem State.goto_reqDn (p : Phase) : (s.goto p).reqDn = s.reqDn := rfl
@[simp] theorem State.goto_confirmUp (p : Phase) : (s.goto p).confirmUp = s.confirmUp := rfl
@[simp] theorem State.goto_confirmDn (p : Phase) : (s.goto p).confirmDn = s.confirmDn := rfl
@[simp] theorem State.goto_gearIndex (p : Phase) : (s.goto p).gearIndex = s.gearIndex := rfl
@[simp] theorem State.goto_dispOut (p : Phase) : (s.goto p).dispOut = s.dispOut := rfl
@[simp] theorem State.goto_phase (p : Phase) : (s.goto p).phase = p := rfl
@[simp] theorem State.goto_stripOut (p : Phase) : (s.goto p).stripOut = s.stripOut := rfl
@[simp] theorem State.goto_strip (p : Phase) : (s.goto p).strip = s.strip := rfl
@[simp] theorem State.goto_schedule (p : Phase) : (s.goto p).schedule = s.schedule := rfl
@[simp] theorem State.goto_supply (p : Phase) : (s.goto p).supply = s.supply := rfl

/-! ## `setRelays` -/

@[simp] theorem State.setRelays_cfg (up dn : Bool) : (s.setRelays up dn).cfg = s.cfg := rfl
@[simp] theorem State.setRelays_intervalCounter (up dn : Bool) : (s.setRelays up dn).intervalCounter = s.intervalCounter := rfl
@[simp] theorem State.setRelays_captureSample (up dn : Bool) : (s.setRelays up dn).captureSample = s.captureSample := rfl
@[simp] theorem State.setRelays_speedReady (up dn : Bool) : (s.setRelays up dn).speedReady = s.speedReady := rfl
@[simp] theorem State.setRelays_sampleLatch (up dn : Bool) : (s.setRelays up dn).sampleLatch = s.sampleLatch := rfl
@[simp] theorem State.setRelays_speedValue (up dn : Bool) : (s.setRelays up dn).speedValue = s.speedValue := rfl
@[simp] theorem State.setRelays_flashTimer (up dn : Bool) : (s.setRelays up dn).flashTimer = s.flashTimer := rfl
@[simp] theorem State.setRelays_flashCompare (up dn : Bool) : (s.setRelays up dn).flashCompare = s.flashCompare := rfl
@[simp] theorem State.setRelays_flashPhase (up dn : Bool) : (s.setRelays up dn).flashPhase = s.flashPhase := rfl
@[simp] theorem State.setRelays_litCount (up dn : Bool) : (s.setRelays up dn).litCount = s.litCount := rfl
@[simp] theorem State.setRelays_redline (up dn : Bool) : (s.setRelays up dn).redline = s.redline := rfl
@[simp] theorem State.setRelays_phaseLatch (up dn : Bool) : (s.setRelays up dn).phaseLatch = s.phaseLatch := rfl
@[simp] theorem State.setRelays_segEnd (up dn : Bool) : (s.setRelays up dn).segEnd = s.segEnd := rfl
@[simp] theorem State.setRelays_segIdx (up dn : Bool) : (s.setRelays up dn).segIdx = s.segIdx := rfl
@[simp] theorem State.setRelays_actUp (up dn : Bool) : (s.setRelays up dn).actUp = up := rfl
@[simp] theorem State.setRelays_actDn (up dn : Bool) : (s.setRelays up dn).actDn = dn := rfl
@[simp] theorem State.setRelays_reqUp (up dn : Bool) : (s.setRelays up dn).reqUp = up := rfl
@[simp] theorem State.setRelays_reqDn (up dn : Bool) : (s.setRelays up dn).reqDn = dn := rfl
@[simp] theorem State.setRelays_confirmUp (up dn : Bool) : (s.setRelays up dn).confirmUp = s.confirmUp := rfl
@[simp] theorem State.setRelays_confirmDn (up dn : Bool) : (s.setRelays up dn).confirmDn = s.confirmDn := rfl
@[simp] theorem State.setRelays_gearIndex (up dn : Bool) : (s.setRelays up dn).gearIndex = s.gearIndex := rfl
@[simp] theorem State.setRelays_dispOut (up dn : Bool) : (s.setRelays up dn).dispOut = s.dispOut := rfl
@[simp] theorem State.setRelays_phase (up dn : Bool) : (s.setRelays up dn).phase = s.phase := rfl
@[simp] theorem State.setRelays_stripOut (up dn : Bool) : (s.setRelays up dn).stripOut = s.stripOut := rfl
@[simp] theorem State.setRelays_strip (up dn : Bool) : (s.setRelays up dn).strip = s.strip := rfl
@[simp] theorem State.setRelays_schedule (up dn : Bool) : (s.setRelays up dn).schedule = s.schedule := rfl
@[simp] theorem State.setRelays_supply (up dn : Bool) : (s.setRelays up dn).supply = s.supply := rfl

/-! ## `setDisplay` -/

@[simp] theorem State.setDisplay_cfg (v : Nat) : (s.setDisplay v).cfg = s.cfg := rfl
@[simp] theorem State.setDisplay_intervalCounter (v : Nat) : (s.setDisplay v).intervalCounter = s.intervalCounter := rfl
@[simp] theorem State.setDisplay_captureSample (v : Nat) : (s.setDisplay v).captureSample = s.captureSample := rfl
@[simp] theorem State.setDisplay_speedReady (v : Nat) : (s.setDisplay v).speedReady = s.speedReady := rfl
@[simp] theorem State.setDisplay_sampleLatch (v : Nat) : (s.setDisplay v).sampleLatch = s.sampleLatch := rfl
@[simp] theorem State.setDisplay_speedValue (v : Nat) : (s.setDisplay v).speedValue = s.speedValue := rfl
@[simp] theorem State.setDisplay_flashTimer (v : Nat) : (s.setDisplay v).flashTimer = s.flashTimer := rfl
@[simp] theorem State.setDisplay_flashCompare (v : Nat) : (s.setDisplay v).flashCompare = s.flashCompare := rfl
@[simp] theorem State.setDisplay_flashPhase (v : Nat) : (s.setDisplay v).flashPhase = s.flashPhase := rfl
@[simp] theorem State.setDisplay_litCount (v : Nat) : (s.setDisplay v).litCount = s.litCount := rfl
@[simp] theorem State.setDisplay_redline (v : Nat) : (s.setDisplay v).redline = s.redline := rfl
@[simp] theorem State.setDisplay_phaseLatch (v : Nat) : (s.setDisplay v).phaseLatch = s.phaseLatch := rfl
@[simp] theorem State.setDisplay_segEnd (v : Nat) : (s.setDisplay v).segEnd = s.segEnd := rfl
@[simp] theorem State.setDisplay_segIdx (v : Nat) : (s.setDisplay v).segIdx = s.segIdx := rfl
@[simp] theorem State.setDisplay_actUp (v : Nat) : (s.setDisplay v).actUp = s.actUp := rfl
@[simp] theorem State.setDisplay_actDn (v : Nat) : (s.setDisplay v).actDn = s.actDn := rfl
@[simp] theorem State.setDisplay_reqUp (v : Nat) : (s.setDisplay v).reqUp = s.reqUp := rfl
@[simp] theorem State.setDisplay_reqDn (v : Nat) : (s.setDisplay v).reqDn = s.reqDn := rfl
@[simp] theorem State.setDisplay_confirmUp (v : Nat) : (s.setDisplay v).confirmUp = s.confirmUp := rfl
@[simp] theorem State.setDisplay_confirmDn (v : Nat) : (s.setDisplay v).confirmDn = s.confirmDn := rfl
@[simp] theorem State.setDisplay_gearIndex (v : Nat) : (s.setDisplay v).gearIndex = s.gearIndex := rfl
@[simp] theorem State.setDisplay_dispOut (v : Nat) : (s.setDisplay v).dispOut = v := rfl
@[simp] theorem State.setDisplay_phase (v : Nat) : (s.setDisplay v).phase = s.phase := rfl
@[simp] theorem State.setDisplay_stripOut (v : Nat) : (s.setDisplay v).stripOut = s.stripOut := rfl
@[simp] theorem State.setDisplay_strip (v : Nat) : (s.setDisplay v).strip = s.strip := rfl
@[simp] theorem State.setDisplay_schedule (v : Nat) : (s.setDisplay v).schedule = s.schedule := rfl
@[simp] theorem State.setDisplay_supply (v : Nat) : (s.setDisplay v).supply = s.supply := rfl

/-! ## `logWord` -/

@[simp] theorem State.logWord_cfg (w : StripWord) : (s.logWord w).cfg = s.cfg := rfl
@[simp] theorem State.logWord_intervalCounter (w : StripWord) : (s.logWord w).intervalCounter = s.intervalCounter := rfl
@[simp] theorem State.logWord_captureSample (w : StripWord) : (s.logWord w).captureSample = s.captureSample := rfl
@[simp] theorem State.logWord_speedReady (w : StripWord) : (s.logWord w).speedReady = s.speedReady := rfl
@[simp] theorem State.logWord_sampleLatch (w : StripWord) : (s.logWord w).sampleLatch = s.sampleLatch := rfl
@[simp] theorem State.logWord_speedValue (w : StripWord) : (s.logWord w).speedValue = s.speedValue := rfl
@[simp] theorem State.logWord_flashTimer (w : StripWord) : (s.logWord w).flashTimer = s.flashTimer := rfl
@[simp] theorem State.logWord_flashCompare (w : StripWord) : (s.logWord w).flashCompare = s.flashCompare := rfl
@[simp] theorem State.logWord_flashPhase (w : StripWord) : (s.logWord w).flashPhase = s.flashPhase := rfl
@[simp] theorem State.logWord_litCount (w : StripWord) : (s.logWord w).litCount = s.litCount := rfl
@[simp] theorem State.logWord_redline (w : StripWord) : (s.logWord w).redline = s.redline := rfl
@[simp] theorem State.logWord_phaseLatch (w : StripWord) : (s.logWord w).phaseLatch = s.phaseLatch := rfl
@[simp] theorem State.logWord_segEnd (w : StripWord) : (s.logWord w).segEnd = s.segEnd := rfl
@[simp] theorem State.logWord_segIdx (w : StripWord) : (s.logWord w).segIdx = s.segIdx := rfl
@[simp] theorem State.logWord_actUp (w : StripWord) : (s.logWord w).actUp = s.actUp := rfl
@[simp] theorem State.logWord_actDn (w : StripWord) : (s.logWord w).actDn = s.actDn := rfl
@[simp] theorem State.logWord_reqUp (w : StripWord) : (s.logWord w).reqUp = s.reqUp := rfl
@[simp] theorem State.logWord_reqDn (w : StripWord) : (s.logWord w).reqDn = s.reqDn := rfl
@[simp] theorem State.logWord_confirmUp (w : StripWord) : (s.logWord w).confirmUp = s.confirmUp := rfl
@[simp] theorem State.logWord_confirmDn (w : StripWord) : (s.logWord w).confirmDn = s.confirmDn := rfl
@[simp] theorem State.logWord_gearIndex (w : StripWord) : (s.logWord w).gearIndex = s.gearIndex := rfl
@[simp] theorem State.logWord_dispOut (w : StripWord) : (s.logWord w).dispOut = s.dispOut := rfl
@[simp] theorem State.logWord_phase (w : StripWord) : (s.logWord w).phase = s.phase := rfl
@[simp] theorem State.logWord_stripOut (w : StripWord) : (s.logWord w).stripOut = s.stripOut ++ [w] := rfl
@[simp] theorem State.logWord_strip (w : StripWord) : (s.logWord w).strip = s.strip := rfl
@[simp] theorem State.logWord_schedule (w : StripWord) : (s.logWord w).schedule = s.schedule := rfl
@[simp] theorem State.logWord_supply (w : StripWord) : (s.logWord w).supply = s.supply := rfl

/-! ## `setStrip` -/

@[simp] theorem State.setStrip_cfg (v : StripView) : (s.setStrip v).cfg = s.cfg := rfl
@[simp] theorem State.setStrip_intervalCounter (v : StripView) : (s.setStrip v).intervalCounter = s.intervalCounter := rfl
@[simp] theorem State.setStrip_captureSample (v : StripView) : (s.setStrip v).captureSample = s.captureSample := rfl
@[simp] theorem State.setStrip_speedReady (v : StripView) : (s.setStrip v).speedReady = s.speedReady := rfl
@[simp] theorem State.setStrip_sampleLatch (v : StripView) : (s.setStrip v).sampleLatch = s.sampleLatch := rfl
@[simp] theorem State.setStrip_speedValue (v : StripView) : (s.setStrip v).speedValue = s.speedValue := rfl
@[simp] theorem State.setStrip_flashTimer (v : StripView) : (s.setStrip v).flashTimer = s.flashTimer := rfl
@[simp] theorem State.setStrip_flashCompare (v : StripView) : (s.setStrip v).flashCompare = s.flashCompare := rfl
@[simp] theorem State.setStrip_flashPhase (v : StripView) : (s.setStrip v).flashPhase = s.flashPhase := rfl
@[simp] theorem State.setStrip_litCount (v : StripView) : (s.setStrip v).litCount = s.litCount := rfl
@[simp] theorem State.setStrip_redline (v : StripView) : (s.setStrip v).redline = s.redline := rfl
@[simp] theorem State.setStrip_phaseLatch (v : StripView) : (s.setStrip v).phaseLatch = s.phaseLatch := rfl
@[simp] theorem State.setStrip_segEnd (v : StripView) : (s.setStrip v).segEnd = s.segEnd := rfl
@[simp] theorem State.setStrip_segIdx (v : StripView) : (s.setStrip v).segIdx = s.segIdx := rfl
@[simp] theorem State.setStrip_actUp (v : StripView) : (s.setStrip v).actUp = s.actUp := rfl
@[simp] theorem State.setStrip_actDn (v : StripView) : (s.setStrip v).actDn = s.actDn := rfl
@[simp] theorem State.setStrip_reqUp (v : StripView) : (s.setStrip v).reqUp = s.reqUp := rfl
@[simp] theorem State.setStrip_reqDn (v : StripView) : (s.setStrip v).reqDn = s.reqDn := rfl
@[simp] theorem State.setStrip_confirmUp (v : StripView) : (s.setStrip v).confirmUp = s.confirmUp := rfl
@[simp] theorem State.setStrip_confirmDn (v : StripView) : (s.setStrip v).confirmDn = s.confirmDn := rfl
@[simp] theorem State.setStrip_gearIndex (v : StripView) : (s.setStrip v).gearIndex = s.gearIndex := rfl
@[simp] theorem State.setStrip_dispOut (v : StripView) : (s.setStrip v).dispOut = s.dispOut := rfl
@[simp] theorem State.setStrip_phase (v : StripView) : (s.setStrip v).phase = s.phase := rfl
@[simp] theorem State.setStrip_stripOut (v : StripView) : (s.setStrip v).stripOut = s.stripOut := rfl
@[simp] theorem State.setStrip_strip (v : StripView) : (s.setStrip v).strip = v := rfl
@[simp] theorem State.setStrip_schedule (v : StripView) : (s.setStrip v).schedule = s.schedule := rfl
@[simp] theorem State.setStrip_supply (v : StripView) : (s.setStrip v).supply = s.supply := rfl

/-! ## `before` -/

@[simp] theorem State.before_cfg (t : Turn) : (s.before t).cfg = s.cfg := rfl
@[simp] theorem State.before_intervalCounter (t : Turn) : (s.before t).intervalCounter = s.intervalCounter := rfl
@[simp] theorem State.before_captureSample (t : Turn) : (s.before t).captureSample = s.captureSample := rfl
@[simp] theorem State.before_speedReady (t : Turn) : (s.before t).speedReady = s.speedReady := rfl
@[simp] theorem State.before_sampleLatch (t : Turn) : (s.before t).sampleLatch = s.sampleLatch := rfl
@[simp] theorem State.before_speedValue (t : Turn) : (s.before t).speedValue = s.speedValue := rfl
@[simp] theorem State.before_flashTimer (t : Turn) : (s.before t).flashTimer = s.flashTimer := rfl
@[simp] theorem State.before_flashCompare (t : Turn) : (s.before t).flashCompare = s.flashCompare := rfl
@[simp] theorem State.before_flashPhase (t : Turn) : (s.before t).flashPhase = s.flashPhase := rfl
@[simp] theorem State.before_litCount (t : Turn) : (s.before t).litCount = s.litCount := rfl
@[simp] theorem State.before_redline (t : Turn) : (s.before t).redline = s.redline := rfl
@[simp] theorem State.before_phaseLatch (t : Turn) : (s.before t).phaseLatch = s.phaseLatch := rfl
@[simp] theorem State.before_segEnd (t : Turn) : (s.before t).segEnd = s.segEnd := rfl
@[simp] theorem State.before_segIdx (t : Turn) : (s.before t).segIdx = s.segIdx := rfl
@[simp] theorem State.before_actUp (t : Turn) : (s.before t).actUp = s.actUp := rfl
@[simp] theorem State.before_actDn (t : Turn) : (s.before t).actDn = s.actDn := rfl
@[simp] theorem State.before_reqUp (t : Turn) : (s.before t).reqUp = s.reqUp := rfl
@[simp] theorem State.before_reqDn (t : Turn) : (s.before t).reqDn = s.reqDn := rfl
@[simp] theorem State.before_confirmUp (t : Turn) : (s.before t).confirmUp = s.confirmUp := rfl
@[simp] theorem State.before_confirmDn (t : Turn) : (s.before t).confirmDn = s.confirmDn := rfl
@[simp] theorem State.before_gearIndex (t : Turn) : (s.before t).gearIndex = s.gearIndex := rfl
@[simp] theorem State.before_dispOut (t : Turn) : (s.before t).dispOut = s.dispOut := rfl
@[simp] theorem State.before_phase (t : Turn) : (s.before t).phase = s.phase := rfl
@[simp] theorem State.before_stripOut (t : Turn) : (s.before t).stripOut = s.stripOut := rfl
@[simp] theorem State.before_strip (t : Turn) : (s.before t).strip = s.strip := rfl
@[simp] theorem State.before_schedule (t : Turn) : (s.before t).schedule = t :: s.schedule := rfl
@[simp] theorem State.before_supply (t : Turn) : (s.before t).supply = s.supply := rfl

/-! ## `dropTurns` -/

@[simp] theorem State.dropTurns_cfg (n : Nat) : (s.dropTurns n).cfg = s.cfg := rfl
@[simp] theorem State.dropTurns_intervalCounter (n : Nat) : (s.dropTurns n).intervalCounter = s.intervalCounter := rfl
@[simp] theorem State.dropTurns_captureSample (n : Nat) : (s.dropTurns n).captureSample = s.captureSample := rfl
@[simp] theorem State.dropTurns_speedReady (n : Nat) : (s.dropTurns n).speedReady = s.speedReady := rfl
@[simp] theorem State.dropTurns_sampleLatch (n : Nat) : (s.dropTurns n).sampleLatch = s.sampleLatch := rfl
@[simp] theorem State.dropTurns_speedValue (n : Nat) : (s.dropTurns n).speedValue = s.speedValue := rfl
@[simp] theorem State.dropTurns_flashTimer (n : Nat) : (s.dropTurns n).flashTimer = s.flashTimer := rfl
@[simp] theorem State.dropTurns_flashCompare (n : Nat) : (s.dropTurns n).flashCompare = s.flashCompare := rfl
@[simp] theorem State.dropTurns_flashPhase (n : Nat) : (s.dropTurns n).flashPhase = s.flashPhase := rfl
@[simp] theorem State.dropTurns_litCount (n : Nat) : (s.dropTurns n).litCount = s.litCount := rfl
@[simp] theorem State.dropTurns_redline (n : Nat) : (s.dropTurns n).redline = s.redline := rfl
@[simp] theorem State.dropTurns_phaseLatch (n : Nat) : (s.dropTurns n).phaseLatch = s.phaseLatch := rfl
@[simp] theorem State.dropTurns_segEnd (n : Nat) : (s.dropTurns n).segEnd = s.segEnd := rfl
@[simp] theorem State.dropTurns_segIdx (n : Nat) : (s.dropTurns n).segIdx = s.segIdx := rfl
@[simp] theorem State.dropTurns_actUp (n : Nat) : (s.dropTurns n).actUp = s.actUp := rfl
@[simp] theorem State.dropTurns_actDn (n : Nat) : (s.dropTurns n).actDn = s.actDn := rfl
@[simp] theorem State.dropTurns_reqUp (n : Nat) : (s.dropTurns n).reqUp = s.reqUp := rfl
@[simp] theorem State.dropTurns_reqDn (n : Nat) : (s.dropTurns n).reqDn = s.reqDn := rfl
@[simp] theorem State.dropTurns_confirmUp (n : Nat) : (s.dropTurns n).confirmUp = s.confirmUp := rfl
@[simp] theorem State.dropTurns_confirmDn (n : Nat) : (s.dropTurns n).confirmDn = s.confirmDn := rfl
@[simp] theorem State.dropTurns_gearIndex (n : Nat) : (s.dropTurns n).gearIndex = s.gearIndex := rfl
@[simp] theorem State.dropTurns_dispOut (n : Nat) : (s.dropTurns n).dispOut = s.dispOut := rfl
@[simp] theorem State.dropTurns_phase (n : Nat) : (s.dropTurns n).phase = s.phase := rfl
@[simp] theorem State.dropTurns_stripOut (n : Nat) : (s.dropTurns n).stripOut = s.stripOut := rfl
@[simp] theorem State.dropTurns_strip (n : Nat) : (s.dropTurns n).strip = s.strip := rfl
@[simp] theorem State.dropTurns_schedule (n : Nat) : (s.dropTurns n).schedule = s.schedule.drop n := rfl
@[simp] theorem State.dropTurns_supply (n : Nat) :
    (s.dropTurns n).supply = s.supply.drop (n - s.schedule.length) := rfl

end Sys2Proof.Machine
end

