-- ==== Sys2Proof/Laws/Strip.lean ====
section
/-! SUPPORT. The strip command word read back, and what an emission can do. -/

namespace Sys2Proof

theorem stripWord_toNat (op : BitVec 1) (l r g b : Byte) :
    (stripWord op l r g b).toNat =
      op.toNat * 2 ^ 32 + l.toNat * 2 ^ 24 + r.toNat * 2 ^ 16 + g.toNat * 2 ^ 8 + b.toNat := by
  have := l.isLt; have := r.isLt; have := g.isLt; have := b.isLt
  simp only [stripWord, BitVec.toNat_append, Nat.shiftLeft_eq]
  rw [Nat.mul_comm _ (2 ^ 8), Nat.mul_comm _ (2 ^ 8), Nat.mul_comm _ (2 ^ 8), Nat.mul_comm _ (2 ^ 8)]
  rw [← Nat.two_pow_add_eq_or_of_lt l.isLt, ← Nat.two_pow_add_eq_or_of_lt r.isLt,
    ← Nat.two_pow_add_eq_or_of_lt g.isLt, ← Nat.two_pow_add_eq_or_of_lt b.isLt]
  omega

/-- The strip reads back the command whose word it is handed (30_encoding.md R110 to R112). -/
@[simp] theorem parseStrip_word (c : StripCommand) : parseStrip c.word = .ok c := by
  cases c with
  | clr => decide
  | seg l r g b =>
    have hw := stripWord_toNat 1 l r g b
    rw [show (1 : BitVec 1).toNat = 1 from rfl] at hw
    have := l.isLt; have := r.isLt; have := g.isLt; have := b.isLt
    have hop : (stripWord 1 l r g b).getLsbD 32 = true := by
      simp only [BitVec.getLsbD, Nat.testBit, hw, Nat.shiftRight_eq_div_pow]
      norm_num
      omega
    have field (i : Nat) (x : Byte) (h : (stripWord 1 l r g b).toNat / 2 ^ i % 2 ^ 8 = x.toNat) :
        (stripWord 1 l r g b).extractLsb' i 8 = x := by
      apply BitVec.eq_of_toNat_eq
      simpa [BitVec.extractLsb'_toNat, Nat.shiftRight_eq_div_pow] using h
    simp only [StripCommand.word, parseStrip, hop, if_true]
    rw [field 24 l (by rw [hw]; norm_num; omega), field 16 r (by rw [hw]; norm_num; omega),
      field 8 g (by rw [hw]; norm_num; omega), field 0 b (by rw [hw]; norm_num; omega)]

namespace Machine

/-- Emitting `CLR` always answers: the word is logged and the strip is dark. -/
@[simp] theorem emit_clr (s : State) :
    emit .clr s =
      .next ((s.logWord (StripCommand.word .clr)).setStrip ⟨List.replicate s.cfg.total (some .off), 0⟩) := by
  simp [emit, stripReceive, execClr, StripView.clear]

/-- Emitting `SEG` always answers: the word is logged and the strip writes the segment. -/
@[simp] theorem emit_seg (l r g b : Byte) (s : State) :
    emit (.seg l r g b) s =
      .next ((s.logWord (StripCommand.word (.seg l r g b))).setStrip (s.strip.write s.cfg.total ⟨l, r, g, b⟩)) := by
  simp [emit, stripReceive, execSeg]

/-- `SCLR` always answers. -/
theorem execSclr_eq (s : State) :
    execSclr s =
      .next (((s.logWord (StripCommand.word .clr)).setStrip
        ⟨List.replicate s.cfg.total (some .off), 0⟩).goto .seg) := by
  simp [execSclr, andThen]

/-- A write keeps the image's length. -/
@[simp] theorem StripView.write_length (total : Nat) (v : StripView) (x : SegmentValue) :
    (v.write total x).image.length = v.image.length := by
  unfold StripView.write; split <;> simp

end Machine

end Sys2Proof
end

