-- ==== Sys2Proof/Laws/Ops.lean ====
section
/-! SUPPORT. For each shared operation, once, everything it can do. -/

namespace Sys2Proof.Machine

@[simp] theorem andThen_next (s : State) (f : State → Result) : andThen (.next s) f = f s := rfl

/-- If a sequence answers, its first part answered and the second answered on that state. -/
theorem andThen_eq_next {r : Result} {f : State → Result} {t : State} (h : andThen r f = .next t) :
    ∃ s, r = .next s ∧ f s = .next t := by
  cases r with
  | next s => exact ⟨s, rfl, h⟩
  | fault e => cases e
  | refused e => cases h

theorem andThen_assoc (r : Result) (f g : State → Result) :
    andThen (andThen r f) g = andThen r fun s => andThen (f s) g := by
  cases r <;> rfl

/-- If a table read goes on and answers, the entry was there. -/
theorem withEntry_eq_next {α : Type} {table : Table} {entry : Option α} {f : α → Result} {t : State}
    (h : withEntry table entry f = .next t) : ∃ a, entry = some a ∧ f a = .next t := by
  cases entry with
  | some a => exact ⟨a, rfl, h⟩
  | none => cases h

/-- An assert write answers with the display or-ed with the gear's entry, at the next phase. -/
theorem displayAssert_eq_next {p : Phase} {s t : State} (h : displayAssert p s = .next t) :
    ∃ a, dispAssertAt s.cfg.toConfig s.gearIndex = some a ∧
      t = (s.setDisplay (assertBits s.cfg.dispW s.dispOut a)).goto p := by
  obtain ⟨a, ha, h⟩ := withEntry_eq_next h
  exact ⟨a, ha, by cases h; rfl⟩

/-- A mask write answers with the gear's bits released, at the next phase. -/
theorem displayMask_eq_next {p : Phase} {s t : State} (h : displayMask p s = .next t) :
    ∃ d, dispDeassertAt s.cfg.toConfig s.gearIndex = some d ∧
      t = (s.setDisplay (releaseBits s.cfg.dispW s.dispOut d)).goto p := by
  obtain ⟨d, hd, h⟩ := withEntry_eq_next h
  exact ⟨d, hd, by cases h; rfl⟩

/-- An assert write is the or, for values of the display's width. -/
theorem assertBits_eq {w x a : Nat} (hx : x < 2 ^ w) (ha : a < 2 ^ w) : assertBits w x a = x ||| a := by
  simp [assertBits, Nat.mod_eq_of_lt hx, Nat.mod_eq_of_lt ha]

/-- A mask write is the and with the complement at the display's width. -/
theorem releaseBits_eq {w x d : Nat} (hx : x < 2 ^ w) (hd : d < 2 ^ w) :
    releaseBits w x d = x &&& (2 ^ w - 1 - d) := by
  simp [releaseBits, BitVec.toNat_not, Nat.mod_eq_of_lt hx, Nat.mod_eq_of_lt hd]

theorem assertBits_lt (w x a : Nat) : assertBits w x a < 2 ^ w := (BitVec.ofNat w x ||| BitVec.ofNat w a).isLt

theorem releaseBits_lt (w x d : Nat) : releaseBits w x d < 2 ^ w := (BitVec.ofNat w x &&& ~~~BitVec.ofNat w d).isLt

theorem wrapTo_lt (w v : Nat) : wrapTo w v < 2 ^ w := Nat.mod_lt _ (Nat.two_pow_pos w)

/-- `SSEG` below `SegEnd` answers with the next segment's word emitted. -/
theorem execSseg_next {s t : State} (h : execSseg s = .next t) :
    (s.segIdx < s.segEnd ∧ ∃ x : Color, payloadColor s.cfg.toConfig s.redline s.segIdx = some x ∧
      t = { (s.logWord (StripCommand.word (.seg s.cfg.brightness x.r x.g x.b))).setStrip
              (s.strip.write s.cfg.total ⟨s.cfg.brightness, x.r, x.g, x.b⟩) with segIdx := s.segIdx + 1 }) ∨
    (¬s.segIdx < s.segEnd ∧ t = s.goto .chkc) := by
  unfold execSseg at h
  split at h
  · obtain ⟨x, hx, h⟩ := withEntry_eq_next h
    simp only [emit_seg, andThen_next, Host.Outcome.next.injEq] at h
    exact .inl ⟨‹_›, x, hx, h.symm⟩
  · exact .inr ⟨‹_›, by cases h; rfl⟩

/-- Running a list of turns is running its parts one after the other. -/
theorem runTurns_append (ts us : List Turn) (s : State) :
    runTurns (ts ++ us) s = andThen (runTurns ts s) (runTurns us) := by
  induction ts generalizing s with
  | nil => rfl
  | cons t ts ih => simp only [List.cons_append, runTurns, andThen_assoc, funext ih]

/-- The next turn is the first of those to come, and what remains is the state with that one taken off. -/
theorem nextTurn_eq (s : State) : nextTurn s = (s.turnAt 0, s.dropTurns 1) := by
  cases h : s.schedule <;> simp [nextTurn, State.turnAt, State.dropTurns, h]
  cases s.supply <;> rfl

/-- Every finite part of an endless sequence of states that follows turns is the run of those turns. -/
theorem FollowsTurns.runTurns {τ : Nat → Turn} {σ : Nat → State} (h : FollowsTurns τ σ) (n : Nat) :
    runTurns ((List.range n).map τ) (σ 0) = .next (σ n) := by
  induction n with
  | zero => rfl
  | succ n ih => simp [List.range_succ, runTurns_append, ih, Machine.runTurns, h n]

end Sys2Proof.Machine
end

