-- ==== Sys2Proof/Laws/PerInstr.lean ====
section
/-! SUPPORT. Per instruction: the encoding of an instruction matches the row of spec/opcode_table.json that carries its
mnemonic. -/

namespace Sys2Proof.Laws

/-- Some row of the opcode table has the instruction's mnemonic and accepts its encoding. -/
def MatchesItsRow.Statement (i : Instr) : Prop :=
  ∃ row ∈ opcodeRows, row.mnemonic = i.mnemonic ∧ row.accepts (encode i) = true

theorem MatchesItsRow.tickc : MatchesItsRow.Statement .tickc := ⟨opcodeRows[0], by decide, rfl, by decide⟩
theorem MatchesItsRow.tickf : MatchesItsRow.Statement .tickf := ⟨opcodeRows[1], by decide, rfl, by decide⟩
theorem MatchesItsRow.tach : MatchesItsRow.Statement .tach := ⟨opcodeRows[2], by decide, rfl, by decide⟩
theorem MatchesItsRow.svpu : MatchesItsRow.Statement .svpu := ⟨opcodeRows[3], by decide, rfl, by decide⟩
theorem MatchesItsRow.svpd : MatchesItsRow.Statement .svpd := ⟨opcodeRows[4], by decide, rfl, by decide⟩
theorem MatchesItsRow.svcu : MatchesItsRow.Statement .svcu := ⟨opcodeRows[5], by decide, rfl, by decide⟩
theorem MatchesItsRow.svcd : MatchesItsRow.Statement .svcd := ⟨opcodeRows[6], by decide, rfl, by decide⟩
theorem MatchesItsRow.nope : MatchesItsRow.Statement .nope := ⟨opcodeRows[7], by decide, rfl, by decide⟩
theorem MatchesItsRow.chks : MatchesItsRow.Statement .chks := ⟨opcodeRows[8], by decide, rfl, by decide⟩
theorem MatchesItsRow.est : MatchesItsRow.Statement .est := ⟨opcodeRows[9], by decide, rfl, by decide⟩
theorem MatchesItsRow.map : MatchesItsRow.Statement .map := ⟨opcodeRows[10], by decide, rfl, by decide⟩
theorem MatchesItsRow.sclr : MatchesItsRow.Statement .sclr := ⟨opcodeRows[11], by decide, rfl, by decide⟩
theorem MatchesItsRow.sseg : MatchesItsRow.Statement .sseg := ⟨opcodeRows[12], by decide, rfl, by decide⟩
theorem MatchesItsRow.chkc : MatchesItsRow.Statement .chkc := ⟨opcodeRows[13], by decide, rfl, by decide⟩
theorem MatchesItsRow.shup : MatchesItsRow.Statement .shup := ⟨opcodeRows[14], by decide, rfl, by decide⟩
theorem MatchesItsRow.dasu : MatchesItsRow.Statement .dasu := ⟨opcodeRows[15], by decide, rfl, by decide⟩
theorem MatchesItsRow.dmku : MatchesItsRow.Statement .dmku := ⟨opcodeRows[16], by decide, rfl, by decide⟩
theorem MatchesItsRow.clru : MatchesItsRow.Statement .clru := ⟨opcodeRows[17], by decide, rfl, by decide⟩
theorem MatchesItsRow.shdn : MatchesItsRow.Statement .shdn := ⟨opcodeRows[18], by decide, rfl, by decide⟩
theorem MatchesItsRow.dasd : MatchesItsRow.Statement .dasd := ⟨opcodeRows[19], by decide, rfl, by decide⟩
theorem MatchesItsRow.dmkd : MatchesItsRow.Statement .dmkd := ⟨opcodeRows[20], by decide, rfl, by decide⟩
theorem MatchesItsRow.clrd : MatchesItsRow.Statement .clrd := ⟨opcodeRows[21], by decide, rfl, by decide⟩
theorem MatchesItsRow.clr : MatchesItsRow.Statement .clr := ⟨opcodeRows[22], by decide, rfl, by decide⟩
theorem MatchesItsRow.seg (l r g b : Byte) : MatchesItsRow.Statement (.seg l r g b) := by
  refine ⟨opcodeRows[23], by decide, rfl, ?_⟩
  have hw := stripWord_toNat 1 l r g b
  have := l.isLt; have := r.isLt; have := g.isLt; have := b.isLt
  have bits : (stripWord 1 l r g b).toNat &&& 2 ^ 32 = 2 ^ 32 := by
    rw [Nat.and_two_pow, hw, show (1 : BitVec 1).toNat = 1 from rfl]
    simp only [Nat.testBit, Nat.shiftRight_eq_div_pow]
    norm_num
    omega
  exact Bool.and_eq_true_iff.2 ⟨rfl, decide_eq_true bits⟩
theorem MatchesItsRow.reset : MatchesItsRow.Statement .reset := ⟨opcodeRows[24], by decide, rfl, by decide⟩

end Sys2Proof.Laws
end

