-- ==== Sys2Proof/Laws/Safety.lean ====
section
/-! SUPPORT. How the properties of the display tables imply one another. -/

namespace Sys2Proof.Machine

theorem TablesComplete.wellFormed {c : Config} {m : Nat} (h : TablesComplete c m) : TablesWellFormed c := by
  intro i low high
  obtain ⟨a, d, ha, hd, disjoint, -⟩ := h i low high
  exact ⟨a, d, ha, hd, disjoint⟩

/-- Tables complete at every index are complete at the gears. -/
theorem TablesComplete.gears {c : Config} {m : Nat} (h : TablesComplete c m) : GearTablesComplete c m :=
  fun g low high => h g.toNat low (by omega)

end Sys2Proof.Machine
end

