-- ==== Sys2Proof/Tests/Slice0.lean ====
section
/-! SUPPORT. Tests: ill-formed terms refused, decoding of words written out from 30_encoding.md, one or two vectors of
95_test_vectors.md per operation, and a witness for the hypotheses of each obligation. -/

namespace Sys2Proof.Tests

open Sys2Proof.Machine

/-! ## Ill-formed configurations are refused -/

theorem test_reference_is_legal : Config.reference.isLegal = true := by decide
theorem test_tick_rate_zero : Config.isLegal { Config.reference with tickRate := 0 } = false := by decide
theorem test_ppr_zero : Config.isLegal { Config.reference with ppr := 0 } = false := by decide
theorem test_ppr_256 : Config.isLegal { Config.reference with ppr := 256 } = false := by decide
theorem test_ceil_zero : Config.isLegal { Config.reference with redlineMargin := 10000 } = false := by decide
theorem test_total_zero : Config.isLegal { Config.reference with nGreen := 0, nYellow := 0, nRed := 0 } = false := by
  decide
theorem test_total_256 : Config.isLegal { Config.reference with nGreen := 236, segW := 9 } = false := by decide
theorem test_speed_width : Config.isLegal { Config.reference with speedW := 24 } = false := by decide
theorem test_lit_width : Config.isLegal { Config.reference with litW := 39 } = false := by decide
theorem test_seg_width : Config.isLegal { Config.reference with segW := 4 } = false := by decide
theorem test_flash_period_zero : Config.isLegal { Config.reference with flashPeriod := 0 } = false := by decide
theorem test_flash_period_wide : Config.isLegal { Config.reference with flashPeriod := 65536 } = false := by decide
theorem test_gear_reset_zero : Config.isLegal { Config.reference with gearReset := 0 } = false := by decide
theorem test_gear_reset_seven : Config.isLegal { Config.reference with gearReset := 7 } = false := by decide
theorem test_table_short :
    Config.isLegal { Config.reference with dispAssert := [6, 91, 79, 102, 109, 125, 7, 127, 111] } = false := by decide
theorem test_table_wide : Config.isLegal { Config.reference with dispW := 6 } = false := by decide

/-! ## Ill-formed words are refused -/

theorem test_phase_code_14 : decode (.ph 14) = .error .reservedPhaseCode ∧ (CodeWord.ph 14).wellFormed = false := by
  decide
theorem test_phase_code_15 : decode (.ph 15) = .error .reservedPhaseCode ∧ (CodeWord.ph 15).wellFormed = false := by
  decide
theorem test_strip_word_reserved :
    decode (.sc 1) = .error .reservedStripWord ∧ (CodeWord.sc 1).wellFormed = false := by decide
theorem test_pin_low : decode (.pin 0) = .error .resetPinLow ∧ (CodeWord.pin 0).wellFormed = false := by decide
theorem test_instr_well_formed : (Instr.seg 0xFF 0xFF 0xFF 0xFF).wellFormed = true := by decide

/-! ## Decoding: one word per constructor, from 30_encoding.md R102 to R104, R106, R111, R112, R119 -/

theorem test_decode_tickc : decode (.ev 0b1000000) = .ok [.tickc] := by decide
theorem test_decode_tickf : decode (.ev 0b0100000) = .ok [.tickf] := by decide
theorem test_decode_tach : decode (.ev 0b0010000) = .ok [.tach] := by decide
theorem test_decode_svpu : decode (.ev 0b0001000) = .ok [.svpu] := by decide
theorem test_decode_svpd : decode (.ev 0b0000100) = .ok [.svpd] := by decide
theorem test_decode_svcu : decode (.ev 0b0000010) = .ok [.svcu] := by decide
theorem test_decode_svcd : decode (.ev 0b0000001) = .ok [.svcd] := by decide
theorem test_decode_nope : decode (.ev 0b0000000) = .ok [.nope] := by decide
theorem test_decode_chks : decode (.ph 0b0000) = .ok [.chks] := by decide
theorem test_decode_est : decode (.ph 0b0001) = .ok [.est] := by decide
theorem test_decode_map : decode (.ph 0b0010) = .ok [.map] := by decide
theorem test_decode_sclr : decode (.ph 0b0011) = .ok [.sclr] := by decide
theorem test_decode_sseg : decode (.ph 0b0100) = .ok [.sseg] := by decide
theorem test_decode_chkc : decode (.ph 0b0101) = .ok [.chkc] := by decide
theorem test_decode_shup : decode (.ph 0b0110) = .ok [.shup] := by decide
theorem test_decode_dasu : decode (.ph 0b0111) = .ok [.dasu] := by decide
theorem test_decode_dmku : decode (.ph 0b1000) = .ok [.dmku] := by decide
theorem test_decode_clru : decode (.ph 0b1001) = .ok [.clru] := by decide
theorem test_decode_shdn : decode (.ph 0b1010) = .ok [.shdn] := by decide
theorem test_decode_dasd : decode (.ph 0b1011) = .ok [.dasd] := by decide
theorem test_decode_dmkd : decode (.ph 0b1100) = .ok [.dmkd] := by decide
theorem test_decode_clrd : decode (.ph 0b1101) = .ok [.clrd] := by decide
theorem test_decode_clr : decode (.sc 0b000000000000000000000000000000000) = .ok [.clr] := by decide
theorem test_decode_seg :
    decode (.sc 0b100010000111111111111111100000000) = .ok [.seg 0x10 0xFF 0xFF 0x00] := by decide
theorem test_decode_reset : decode (.pin 1) = .ok [.reset] := by decide

/-- Vectors V118 to V123: the first edge wins, the timer and tachometer bits come first. -/
theorem test_decode_edges :
    decodeEvent 0x03 = [.svcu] ∧ decodeEvent 0x06 = [.svpd] ∧ decodeEvent 0x0C = [.svpu] ∧ decodeEvent 0x0F = [.svpu] ∧
      decodeEvent 0x59 = [.tickc, .tach, .svpu] ∧ decodeEvent 0x7F = [.tickc, .tickf, .tach, .svpu] := by decide
theorem test_event_word_0x59 : eventWord [.tkc, .tach, .pu, .cd] = 0x59 := by decide

/-- The strip words of 95_test_vectors.md: `G`, `Y`, `R`. -/
theorem test_encode_seg :
    encode (.seg 0x10 0x00 0xFF 0x00) = .sc 0x11000FF00 ∧ encode (.seg 0x10 0xFF 0xFF 0x00) = .sc 0x110FFFF00 ∧
      encode (.seg 0x10 0xFF 0x00 0x00) = .sc 0x110FF0000 := by decide

/-- The host's words, by their number of bits. -/
theorem test_table_words :
    decodeTableWord 8 0x40 = some .tickc ∧ decodeTableWord 7 0x08 = some .svpu ∧ decodeTableWord 8 0x0B = some .dasd ∧
      decodeTableWord 40 0x100000000 = some (.seg 0 0 0 0) ∧ decodeTableWord 40 0 = some .clr ∧
      decodeTableWord 1 1 = some .reset ∧ decodeTableWord 8 0x0E = some .svpu ∧ decodeTableWord 33 1 = none := by decide

/-! ## The operations: vectors of 95_test_vectors.md -/

/-- Whether an operation answers with a next state that passes a check. -/
def answers (r : Result) (check : State → Bool) : Bool :=
  match r with
  | .next t => check t
  | .fault e => nomatch e
  | .refused _ => false

/-- V3: the capture counter wraps. -/
theorem test_tickc_wraps :
    answers (exec .tickc { State.reset with intervalCounter := 65535 }) (·.intervalCounter = 0) = true := by decide
/-- V6: a second capture overwrites the first. -/
theorem test_tach_overwrites :
    answers (exec .tach { State.reset with intervalCounter := 3125, captureSample := 6000, speedReady := true })
      (fun t => t.captureSample = 3125 ∧ t.intervalCounter = 0 ∧ t.speedReady = true) = true := by decide
/-- V11. -/
theorem test_chks_takes_sample :
    answers (exec .chks { State.reset with captureSample := 6000, speedReady := true })
      (fun t => t.sampleLatch = 6000 ∧ t.speedReady = false ∧ t.phase = .est ∧ t.captureSample = 6000) = true := by decide
/-- V10. -/
theorem test_chks_without_sample :
    answers (exec .chks { State.reset with captureSample := 7 }) (fun t => t.phase = .chkc ∧ t.sampleLatch = 0) = true := by
  decide
/-- V12. -/
theorem test_est_zero :
    answers (exec .est { State.reset with speedValue := 5 }) (fun t => t.speedValue = 0 ∧ t.phase = .map) = true := by decide
/-- V22a. -/
theorem test_est_floor :
    answers (exec .est { State.reset with sampleLatch := 6001 }) (·.speedValue = 4999) = true := by decide
/-- V33: a match, and the compare value wraps. -/
theorem test_tickf_match :
    answers (exec .tickf { State.reset with flashTimer := 64999, flashCompare := 65000 })
      (fun t => t.flashTimer = 65000 ∧ t.flashPhase = true ∧ t.flashCompare = 464) = true := by decide
/-- V34: the timer wraps without a match. -/
theorem test_tickf_wrap :
    answers (exec .tickf { State.reset with flashTimer := 65535, flashCompare := 464, flashPhase := true })
      (fun t => t.flashTimer = 0 ∧ t.flashPhase = true ∧ t.flashCompare = 464) = true := by decide
/-- V53. -/
theorem test_map_graduated :
    answers (exec .map { State.reset with speedValue := 9919, flashPhase := true, segIdx := 9 })
      (fun t => t.litCount = 30 ∧ t.redline = false ∧ t.segEnd = 30 ∧ t.segIdx = 0 ∧ t.phaseLatch = true) = true := by
  decide
/-- V55. -/
theorem test_map_redline_off :
    answers (exec .map { State.reset with speedValue := 9920 })
      (fun t => t.litCount = 31 ∧ t.redline = true ∧ t.segEnd = 0) = true := by decide
/-- V61: the other relay is released. -/
theorem test_svpu_releases_down :
    answers (exec .svpu { State.reset with actDn := true, reqDn := true })
      (fun t => t.actUp = true ∧ t.actDn = false ∧ t.reqUp = true ∧ t.reqDn = false) = true := by decide
/-- V63. -/
theorem test_svpd_releases_up :
    answers (exec .svpd { State.reset with actUp := true, reqUp := true })
      (fun t => t.actUp = false ∧ t.actDn = true ∧ t.reqUp = false ∧ t.reqDn = true) = true := by decide
/-- V64. -/
theorem test_svcu_releases_and_arms :
    answers (exec .svcu { State.reset with actUp := true, reqUp := true })
      (fun t => t.actUp = false ∧ t.reqUp = false ∧ t.confirmUp = true ∧ t.confirmDn = false) = true := by decide
/-- V67. -/
theorem test_svcd_releases_and_arms :
    answers (exec .svcd { State.reset with actDn := true, reqDn := true })
      (fun t => t.actDn = false ∧ t.reqDn = false ∧ t.confirmDn = true ∧ t.confirmUp = false) = true := by decide
/-- V70. -/
theorem test_chkc_idle : answers (exec .chkc { State.reset with phase := .chkc }) (·.phase = .chks) = true := by decide
/-- V71. -/
theorem test_chkc_down : answers (exec .chkc { State.reset with confirmDn := true }) (·.phase = .shup) = true := by decide
/-- V72. -/
theorem test_shup_steps :
    answers (exec .shup { State.reset with confirmUp := true, gearIndex := 3 })
      (fun t => t.gearIndex = 4 ∧ t.phase = .dau ∧ t.confirmUp = true) = true := by decide
/-- V74, with `CLEAR_ON_BOUND = false`. -/
theorem test_shup_at_bound :
    answers (exec .shup { State.reset with confirmUp := true, gearIndex := 6 })
      (fun t => t.gearIndex = 6 ∧ t.phase = .shdn ∧ t.confirmUp = true) = true := by decide
/-- V75. -/
theorem test_dasu :
    answers (exec .dasu { State.reset with gearIndex := 4, dispOut := 0x4F })
      (fun t => t.dispOut = 0x6F ∧ t.phase = .dmu) = true := by decide
/-- V76. -/
theorem test_dmku :
    answers (exec .dmku { State.reset with gearIndex := 4, dispOut := 0x6F })
      (fun t => t.dispOut = 0x66 ∧ t.phase = .clu) = true := by decide
/-- V77. -/
theorem test_clru :
    answers (exec .clru { State.reset with confirmUp := true, confirmDn := true })
      (fun t => t.confirmUp = false ∧ t.confirmDn = true ∧ t.phase = .shdn) = true := by decide
/-- V78. -/
theorem test_shdn_steps :
    answers (exec .shdn { State.reset with confirmDn := true, gearIndex := 4 })
      (fun t => t.gearIndex = 3 ∧ t.phase = .dad) = true := by decide
/-- V80, with `CLEAR_ON_BOUND = true`. -/
theorem test_shdn_at_bound_clears :
    answers (exec .shdn { State.reset with
        cfg := ⟨{ Config.reference with clearOnBound := true }, by decide⟩, confirmDn := true })
      (fun t => t.gearIndex = 1 ∧ t.phase = .chks ∧ t.confirmDn = false) = true := by decide
/-- V81. -/
theorem test_dasd :
    answers (exec .dasd { State.reset with gearIndex := 3, dispOut := 0x66 })
      (fun t => t.dispOut = 0x6F ∧ t.phase = .dmd) = true := by decide
/-- V82. -/
theorem test_dmkd :
    answers (exec .dmkd { State.reset with gearIndex := 3, dispOut := 0x6F })
      (fun t => t.dispOut = 0x4F ∧ t.phase = .cld) = true := by decide
/-- V83. -/
theorem test_clrd :
    answers (exec .clrd { State.reset with confirmUp := true, confirmDn := true })
      (fun t => t.confirmUp = true ∧ t.confirmDn = false ∧ t.phase = .chks) = true := by decide
/-- V90. -/
theorem test_sclr :
    answers (exec .sclr { State.reset with phase := .clr, strip := ⟨List.replicate 30 none, 7⟩ })
      (fun t => t.stripOut = [0x000000000] ∧ t.phase = .seg ∧ t.strip = ⟨List.replicate 30 (some .off), 0⟩) = true := by
  decide
/-- V93: the first yellow segment. -/
theorem test_sseg_yellow :
    answers (exec .sseg { State.reset with segIdx := 10, segEnd := 15 })
      (fun t => t.stripOut = [0x110FFFF00] ∧ t.segIdx = 11) = true := by decide
/-- V95, in a configuration whose alert colour differs from the red zone colour. -/
theorem test_sseg_alert :
    answers (exec .sseg { State.reset with
        cfg := ⟨{ Config.reference with colorAlert := ⟨0x12, 0x34, 0x56⟩ }, by decide⟩, redline := true, segEnd := 30 })
      (·.stripOut = [0x110123456]) = true := by decide
/-- S7: the strip is dark after `CLR`. -/
theorem test_clr :
    answers (exec .clr { State.reset with strip := ⟨List.replicate 30 none, 30⟩ })
      (·.strip = ⟨List.replicate 30 (some ⟨0, 0, 0, 0⟩), 0⟩) = true := by decide
/-- 43_strip_sequencer.md R212, with the write position in the middle. -/
theorem test_seg :
    answers (exec (.seg 0x10 0x00 0xFF 0x01) { State.reset with strip := ⟨List.replicate 30 none, 29⟩ })
      (·.strip = ⟨List.replicate 29 none ++ [some ⟨0x10, 0x00, 0xFF, 0x01⟩], 30⟩) = true := by decide
/-- V110. -/
theorem test_nope : answers (act (.event 0) State.reset) (· = State.reset) = true := by decide
/-- V140, from a state with every register changed. -/
theorem test_reset :
    answers (exec .reset { State.reset with
        intervalCounter := 9, speedReady := true, flashTimer := 5, flashCompare := 6, flashPhase := true, segEnd := 3
        gearIndex := 4, dispOut := 0x66, phase := .seg, stripOut := [0], confirmUp := true, actUp := true })
      (· = State.reset) = true := by decide
theorem test_reset_display : State.reset.dispOut = 0x06 := by decide

/-- V122: tick, then capture, then the paddle; the confirm edge is dropped. -/
theorem test_event_word_order :
    answers (act (.event 0x59) State.reset)
      (fun t => t.captureSample = 1 ∧ t.intervalCounter = 0 ∧ t.actUp = true ∧ t.confirmDn = false) = true := by decide

/-- The next step runs a presented word (log entry 10). -/
theorem test_fetch_word :
    answers (step (State.reset.withFetchWord 8 0x40)) (·.intervalCounter = 1) = true ∧
      answers (step (State.reset.withFetchWord 33 0x112345678)) (·.stripOut = [0x112345678]) = true ∧
      answers (step (State.reset.withFetchWord 8 0x02)) (·.confirmUp = true) = true := by decide

/-! ## Witnesses for the hypotheses of the obligations -/

/-- The invariants of 10_state.md R46 as one check, so that a concrete state is shown to have them by evaluation. -/
def hasInv (s : State) : Bool :=
  decide (¬(s.actUp = true ∧ s.actDn = true)) && decide (s.reqUp = s.actUp) && decide (s.reqDn = s.actDn) &&
    decide (1 ≤ s.gearIndex.toNat) && decide (s.gearIndex.toNat ≤ 6) && decide (s.segIdx ≤ s.segEnd) &&
    decide (s.segEnd ≤ s.cfg.total) && decide (s.phase.code.toNat ≤ 13) &&
    decide (s.redline = true ↔ s.cfg.total < s.litCount) && decide (s.speedValue < 2 ^ s.cfg.speedW) &&
    decide (s.litCount < 2 ^ s.cfg.litW)

theorem inv_of_check {s : State} (h : hasInv s = true) : s.Inv := by
  simp only [hasInv, Bool.and_eq_true, decide_eq_true_eq] at h
  obtain ⟨⟨⟨⟨⟨⟨⟨⟨⟨⟨h1, h2⟩, h3⟩, h4⟩, h5⟩, h6⟩, h7⟩, h8⟩, h9⟩, h10⟩, h11⟩ := h
  exact ⟨h1, h2, h3, h4, h5, h6, h7, h8, h9, h10, h11⟩

theorem reset_widths : State.reset.Widths := by constructor <;> decide

/-- 00_scope.md R17: the reference tables are well formed and complete over `0x7F`, at all ten entries. -/
theorem reference_tables_complete : TablesComplete Config.reference 0x7F := by
  intro i low high
  have all : ∀ i < 11, 1 ≤ i →
      tableEntry Config.reference.dispAssert i = some ((tableEntry Config.reference.dispAssert i).getD 0) ∧
      tableEntry Config.reference.dispDeassert i = some ((tableEntry Config.reference.dispDeassert i).getD 0) ∧
      (tableEntry Config.reference.dispAssert i).getD 0 &&& (tableEntry Config.reference.dispDeassert i).getD 0 = 0 ∧
      (tableEntry Config.reference.dispAssert i).getD 0 ||| (tableEntry Config.reference.dispDeassert i).getD 0 = 0x7F := by
    decide
  exact ⟨_, _, all i (by omega) low⟩

theorem reference_gear_tables_complete : GearTablesComplete LegalConfig.reference.toConfig 0x7F :=
  reference_tables_complete.gears

/-- A tick of the capture timer, as a turn. -/
def tick : Turn := .event 0b1000000

theorem witness_ChksLoadsAndClearsReadySample :
    State.speedReady { State.reset with speedReady := true } = true ∧ State.reset.speedReady = false := by decide

theorem witness_EstimatorLaws_sentinel :
    (∃ t, exec .est State.reset = .next t) ∧ (∃ t, exec .est { State.reset with sampleLatch := 1 } = .next t) ∧
      State.reset.sampleLatch = 0 ∧ 1 ≤ State.reset.cfg.tickRate * 60 / State.reset.cfg.ppr :=
  ⟨⟨_, rfl⟩, ⟨_, rfl⟩, by decide, by decide⟩

theorem witness_EstimatorLaws_monotone :
    (∃ t, exec .est { State.reset with sampleLatch := 65534 } = .next t) ∧
      (∃ t, exec .est { State.reset with sampleLatch := 65535 } = .next t) ∧ (1 : Nat) ≤ 65534 ∧ (65534 : Nat) ≤ 65535 :=
  ⟨⟨_, rfl⟩, ⟨_, rfl⟩, by decide, by decide⟩

theorem witness_CaptureCountsTicksBetweenEdges :
    State.reset.Inv ∧ (Turn.reset = .reset ∨ ∃ w₀, Turn.reset = .event w₀ ∧ carries w₀ .tach = true) ∧
      (Turn.event 0x10 = .reset ∨ ∃ w₀, Turn.event 0x10 = .event w₀ ∧ carries w₀ .tach = true) ∧
      (∀ t ∈ [tick, .seq, .event 0b1000010], t ≠ .reset ∧ requests .tach t = false) ∧
      carries 0b1010000 .tach = true :=
  ⟨inv_of_check (by decide), .inl rfl, .inr ⟨_, rfl, by decide⟩, by decide, by decide⟩

theorem witness_FlashSquareWave : Turn.reset ∉ [Turn.event 0b0100000, .seq, .event 0b0100000] := by decide

theorem witness_TickfTogglesOnMatch :
    (State.flashTimer { State.reset with flashTimer := 999 } + 1) % 2 ^ State.reset.cfg.ftW = State.reset.flashCompare ∧
      (State.reset.flashTimer + 1) % 2 ^ State.reset.cfg.ftW ≠ State.reset.flashCompare := by decide

theorem witness_MapResultsFitTheirRegisters :
    State.speedValue { State.reset with speedValue := 4294967295 } < 2 ^ State.reset.cfg.speedW ∧
      (∃ t, exec .map { State.reset with speedValue := 4294967295 } = .next t) ∧
      Config.litW { Config.reference with litW := 39 } < Config.reference.speedW + 8 :=
  ⟨by decide, ⟨_, rfl⟩, by decide⟩

theorem witness_MapperLaws :
    (∃ t, exec .map { State.reset with speedValue := 9919 } = .next t) ∧
      (∃ t, exec .map { State.reset with speedValue := 9920 } = .next t) ∧ (9919 : Nat) ≤ 9920 ∧
      (∃ t, exec .map { State.reset with speedValue := 9600 } = .next t) ∧ 9600 = State.reset.cfg.ceil ∧
      State.reset.cfg.total < State.reset.cfg.ceil ∧ State.reset.cfg.ceil - 1 ≤ 9599 ∧ 9601 ≤ State.reset.cfg.ceil + 1 :=
  ⟨⟨_, rfl⟩, ⟨_, rfl⟩, by decide, ⟨_, rfl⟩, by decide, by decide, by decide, by decide⟩

theorem witness_ChkcEntersShiftStepOnConfirm :
    (State.confirmUp { State.reset with confirmUp := true } = true) ∧
      (State.confirmDn { State.reset with confirmDn := true } = true) ∧
      State.reset.confirmUp = false ∧ State.reset.confirmDn = false := by decide

theorem witness_ShupStepsGearUpUnderGuard :
    (5 : Gear).toNat < 6 ∧ ¬(State.confirmUp { State.reset with confirmUp := true, gearIndex := 6 } = true ∧
      (State.gearIndex { State.reset with confirmUp := true, gearIndex := 6 }).toNat < 6) ∧
      State.confirmUp { State.reset with confirmUp := true, gearIndex := 5 } = true := by decide

theorem witness_ShdnStepsGearDownUnderGuard :
    1 < (2 : Gear).toNat ∧ ¬(State.confirmDn { State.reset with confirmDn := true } = true ∧
      1 < (State.gearIndex { State.reset with confirmDn := true }).toNat) ∧
      State.confirmDn { State.reset with confirmDn := true, gearIndex := 2 } = true := by decide

theorem witness_DisplayAssertOrsTableEntry :
    1 ≤ State.reset.gearIndex.toNat ∧ State.reset.dispOut < 2 ^ State.reset.cfg.dispW := by decide

theorem witness_DisplayMaskReleasesTableEntry :
    1 ≤ (State.gearIndex { State.reset with gearIndex := 6, dispOut := 0xFF }).toNat ∧
      State.dispOut { State.reset with gearIndex := 6, dispOut := 0xFF } < 2 ^ State.reset.cfg.dispW := by decide

/-- A shift from gear 3 to gear 4, at the assert write. -/
def shifting : State := { State.reset with phase := .dau, gearIndex := 4, dispOut := 0x4F, confirmUp := true }

theorem witness_AssertThenMaskShowsDigit :
    shifting.Inv ∧ shifting.Widths ∧ (shifting.phase = .dau ∨ shifting.phase = .dad) ∧
      shifting.cfg.dispAssert[shifting.gearIndex.toNat - 1]? = some 0x66 ∧
      shifting.cfg.dispDeassert[shifting.gearIndex.toNat - 1]? = some 0x19 ∧ 0x66 &&& 0x19 = 0 ∧
      Turn.reset ∉ [Turn.seq, .event 0b0001000, .seq] ∧ seqCount [Turn.seq, .event 0b0001000, .seq] = 2 :=
  ⟨inv_of_check (by decide), by constructor <;> decide, .inl rfl, by decide, by decide, by decide, by decide, by decide⟩

theorem witness_DisplayShowsGearKeptByStep :
    GearTablesComplete State.reset.cfg.toConfig 0x7F ∧ State.reset.Inv ∧ State.reset.DisplayShows 0x7F ∧
      (∃ t, step State.reset = .next t) ∧ shifting.Inv ∧ shifting.DisplayShows 0x7F ∧ ∃ t, step shifting = .next t :=
  ⟨reference_gear_tables_complete, inv_of_check (by decide), ⟨by decide, rfl⟩, ⟨_, rfl⟩, inv_of_check (by decide),
    ⟨by decide, rfl⟩, ⟨_, rfl⟩⟩

/-- A state at the check of the confirm flags. -/
def atChkc (gear : Gear) (up dn : Bool) : State :=
  { State.reset with phase := .chkc, gearIndex := gear, confirmUp := up, confirmDn := dn }

theorem witness_ShiftStepOrders_none : (atChkc 6 true false).Inv ∧ (atChkc 6 true false).phase = .chkc ∧
    (atChkc 6 true false).confirmUp = true ∧ ¬((atChkc 6 true false).gearIndex.toNat < 6) ∧
    (atChkc 6 true false).confirmDn = false :=
  ⟨inv_of_check (by decide), rfl, rfl, by decide, rfl⟩

theorem witness_ShiftStepOrders_up : (atChkc 5 true false).Inv ∧ (atChkc 5 true false).phase = .chkc ∧
    (atChkc 5 true false).confirmUp = true ∧ (atChkc 5 true false).gearIndex.toNat < 6 ∧
    (atChkc 5 true false).confirmDn = false :=
  ⟨inv_of_check (by decide), rfl, rfl, by decide, rfl⟩

theorem witness_ShiftStepOrders_down : (atChkc 6 true true).Inv ∧ (atChkc 6 true true).phase = .chkc ∧
    ¬((atChkc 6 true true).gearIndex.toNat < 6) ∧ (atChkc 6 true true).confirmDn = true ∧
    1 < (atChkc 6 true true).gearIndex.toNat :=
  ⟨inv_of_check (by decide), rfl, by decide, rfl, by decide⟩

theorem witness_ShiftStepOrders_both : (atChkc 1 true true).Inv ∧ (atChkc 1 true true).phase = .chkc ∧
    (atChkc 1 true true).confirmUp = true ∧ (atChkc 1 true true).gearIndex.toNat < 6 ∧
    (atChkc 1 true true).confirmDn = true :=
  ⟨inv_of_check (by decide), rfl, rfl, by decide, rfl⟩

theorem witness_ConfirmInsideWindowIsAbsorbed :
    shifting.Inv ∧ shifting.phase = .dau ∧ State.Inv { shifting with phase := .dad } ∧
      Turn.reset ∉ [Turn.seq, .event 0b0000010, .seq] ∧ seqCount [Turn.seq, .event 0b0000010, .seq] = 2 :=
  ⟨inv_of_check (by decide), rfl, inv_of_check (by decide), by decide, by decide⟩

theorem witness_ConfirmAtBoundStaysArmed_up :
    State.Inv { State.reset with gearIndex := 6, dispOut := 0x7D } ∧
      State.phase { State.reset with gearIndex := 6, dispOut := 0x7D } = .chks ∧
      State.speedReady { State.reset with gearIndex := 6, dispOut := 0x7D } = false ∧
      State.confirmDn { State.reset with gearIndex := 6, dispOut := 0x7D } = false ∧ (6 : Gear).toNat = 6 :=
  ⟨inv_of_check (by decide), rfl, rfl, rfl, rfl⟩

theorem witness_ConfirmAtBoundStaysArmed_down :
    State.reset.Inv ∧ State.reset.phase = .chks ∧ State.reset.speedReady = false ∧ State.reset.confirmUp = false ∧
      State.reset.gearIndex.toNat = 1 :=
  ⟨inv_of_check (by decide), rfl, rfl, rfl, by decide⟩

theorem witness_RelayStaysDriven_up :
    (∃ t, act (.event 0b1001001) { State.reset with actUp := true, reqUp := true } = .next t) ∧
      Turn.event 0b1001001 ≠ .reset ∧ ∀ w, Turn.event 0b1001001 = .event w →
        Instr.svpd ∉ decodeEvent w ∧ Instr.svcu ∉ decodeEvent w ∧ Instr.svcd ∉ decodeEvent w :=
  ⟨⟨_, rfl⟩, by decide, by intro w h; cases h; decide⟩

theorem witness_RelayStaysDriven_down :
    (∃ t, act (.event 0b0010101) { State.reset with actDn := true, reqDn := true } = .next t) ∧
      Turn.event 0b0010101 ≠ .reset ∧ ∀ w, Turn.event 0b0010101 = .event w →
        Instr.svpu ∉ decodeEvent w ∧ Instr.svcu ∉ decodeEvent w ∧ Instr.svcd ∉ decodeEvent w :=
  ⟨⟨_, rfl⟩, by decide, by intro w h; cases h; decide⟩

theorem witness_StripCommandsDrawOnStrip :
    State.reset.strip.ptr < State.reset.cfg.total ∧ State.reset.strip.image.length = State.reset.cfg.total ∧
      (StripView.mk (List.replicate 30 none) 30).ptr = State.reset.cfg.total := by decide

theorem witness_SsegCommandsNextSegment :
    (30 : Nat) ≤ State.reset.cfg.total ∧
      State.segIdx { State.reset with segIdx := 29, segEnd := 30 } < 30 ∧
      State.segEnd { State.reset with segIdx := 29, segEnd := 30 } ≤ State.reset.cfg.total ∧
      ¬State.reset.segIdx < State.reset.segEnd := by decide

theorem witness_ReadsOutsideTablesAreRefused :
    State.gearIndex { State.reset with gearIndex := 0 } = 0 ∧
      State.redline { State.reset with segIdx := 30, segEnd := 31 } = false ∧
      State.segIdx { State.reset with segIdx := 30, segEnd := 31 } < 31 ∧ State.reset.cfg.total ≤ 30 := by decide

/-- A planned pass of `n` segments. -/
def planned (n : Nat) : State := { State.reset with phase := .clr, segEnd := n, litCount := n }

theorem witness_PassIssuesItsPlan_full :
    (planned 30).Inv ∧ (planned 30).phase = .clr ∧ (planned 30).segIdx = 0 ∧
      Turn.reset ∉ tick :: List.replicate 32 Turn.seq ∧ seqCount (tick :: List.replicate 32 Turn.seq) = (planned 30).segEnd + 2 :=
  ⟨inv_of_check (by decide), rfl, rfl, by decide, by decide⟩

theorem witness_PassIssuesItsPlan_empty :
    (planned 0).Inv ∧ (planned 0).phase = .clr ∧ (planned 0).segIdx = 0 ∧ Turn.reset ∉ [Turn.seq, tick, .seq] ∧
      seqCount [Turn.seq, tick, .seq] = (planned 0).segEnd + 2 :=
  ⟨inv_of_check (by decide), rfl, rfl, by decide, by decide⟩

/-- A state about to map a speed. -/
def atMap (speed : Nat) (flash : Bool) : State :=
  { State.reset with phase := .map, speedValue := speed, flashPhase := flash }

theorem witness_PassByRegime_graduated :
    (atMap 9919 false).Inv ∧ (atMap 9919 false).phase = .map ∧
      30 = (atMap 9919 false).speedValue * (atMap 9919 false).cfg.total / (atMap 9919 false).cfg.ceil ∧
      30 ≤ (atMap 9919 false).cfg.total ∧ Turn.reset ∉ List.replicate 32 Turn.seq ∧
      seqCount (List.replicate 32 Turn.seq) = 30 + 2 :=
  ⟨inv_of_check (by decide), rfl, by decide, by decide, by decide, by decide⟩

theorem witness_PassByRegime_flash_on :
    (atMap 9920 true).Inv ∧ (atMap 9920 true).phase = .map ∧
      31 = (atMap 9920 true).speedValue * (atMap 9920 true).cfg.total / (atMap 9920 true).cfg.ceil ∧
      (atMap 9920 true).cfg.total < 31 ∧ (atMap 9920 true).flashPhase = true ∧
      Turn.reset ∉ List.replicate 32 Turn.seq ∧
      seqCount (List.replicate 32 Turn.seq) = (atMap 9920 true).cfg.total + 2 :=
  ⟨inv_of_check (by decide), rfl, by decide, by decide, rfl, by decide, by decide⟩

theorem witness_PassByRegime_flash_off :
    (atMap 9920 false).Inv ∧ (atMap 9920 false).phase = .map ∧
      31 = (atMap 9920 false).speedValue * (atMap 9920 false).cfg.total / (atMap 9920 false).cfg.ceil ∧
      (atMap 9920 false).cfg.total < 31 ∧ (atMap 9920 false).flashPhase = false ∧
      Turn.reset ∉ [Turn.seq, tick, .seq] ∧ seqCount [Turn.seq, tick, .seq] = 2 :=
  ⟨inv_of_check (by decide), rfl, by decide, by decide, rfl, by decide, by decide⟩

theorem witness_SamePlanSameCommands :
    (atMap 320 false).Inv ∧ State.Inv { atMap 320 false with gearIndex := 4, segIdx := 2, segEnd := 5 } ∧
      1 = segEndOf (atMap 320 false).cfg.toConfig (litOf (atMap 320 false).cfg.toConfig 320) false ∧
      Turn.reset ∉ [Turn.seq, .seq, .seq] ∧ Turn.reset ∉ [Turn.seq, tick, .seq, .seq] ∧
      seqCount [Turn.seq, .seq, .seq] = 1 + 2 ∧ seqCount [Turn.seq, tick, .seq, .seq] = 1 + 2 :=
  ⟨inv_of_check (by decide), inv_of_check (by decide), by decide, by decide, by decide, by decide, by decide⟩

theorem witness_StripViewFollowsStripOut :
    State.StripAgrees { State.reset with phase := .clr } ∧ ∃ t, step { State.reset with phase := .clr } = .next t :=
  ⟨rfl, _, rfl⟩

theorem witness_NoMorePassesThanEdges : Turn.reset ∉ [Turn.event 0b0010000, .seq, .seq, .seq, .seq] := by decide

theorem witness_NoPulseNoPicture :
    State.reset.Inv ∧ State.reset.phase = .chks ∧ State.reset.speedReady = false ∧
      ∀ t ∈ [Turn.seq, .event 0b1101111, .seq], t ≠ .reset ∧ requests .tach t = false :=
  ⟨inv_of_check (by decide), rfl, rfl, by decide⟩

theorem witness_ReservedWordsAreRefused : (CodeWord.sc 0x112345678).wellFormed = true := by decide

theorem witness_DecodeEncodeAgree : (Instr.seg 1 2 3 4).wellFormed = true := by decide

theorem witness_EncodeDecodeAgree :
    (CodeWord.sc 0x101020304).format ≠ .ev ∧ decode (.sc 0x101020304) = .ok [.seg 1 2 3 4] := by decide

theorem witness_EventWordOrder :
    (Instr.tickf, Instr.tach) ∈ [(Instr.tickc, Instr.tickf), (.tickf, .tach)] ∧
      Instr.tach ∈ [Instr.tickc, .tickf, .tach] ∧ Instr.svcd ∈ [Instr.svpu, .svpd, .svcu, .svcd] := by decide

theorem witness_StepRunsDecodedOperation :
    decodePhase State.reset.phase.code = .ok .chks ∧ decode (.ev 0b0000100) = .ok [.svpd] := by decide

theorem witness_RunFollowsTurns_free_supply (w : EventWord) :
    State.turnAt { State.reset with schedule := [.event w], supply := .free 3 } 2 = Config.openTurn 4 := rfl

theorem witness_EveryStepCompletes : State.reset.Inv := inv_of_check (by decide)

theorem witness_InvariantsKeptByStep : State.reset.Inv ∧ ∃ t, step State.reset = .next t :=
  ⟨inv_of_check (by decide), _, rfl⟩

theorem witness_InvariantsHoldAtReset : GearTablesComplete LegalConfig.reference.toConfig 0x7F :=
  reference_gear_tables_complete

theorem witness_WidthsAndPlanKeptByStep :
    State.reset.Widths ∧ State.reset.PlanAgrees ∧ ∃ t, step State.reset = .next t :=
  ⟨reset_widths, rfl, _, rfl⟩

theorem witness_PhaseFollowsSuccessorTable :
    (∃ t, act .seq State.reset = .next t) ∧ ∃ t, act (.event 0b1111111) State.reset = .next t :=
  ⟨⟨_, rfl⟩, _, rfl⟩

theorem witness_EventStepFrame :
    State.speedReady { State.reset with speedReady := true } = true ∧
      State.confirmUp { State.reset with confirmUp := true } = true ∧
      State.confirmDn { State.reset with confirmDn := true } = true := by decide

theorem witness_SequencerStepFrame :
    answers (act .seq { State.reset with phase := .chkc, speedReady := true, confirmUp := true, confirmDn := true })
      (fun t => t.speedReady = true ∧ t.confirmUp = true ∧ t.confirmDn = true) = true := by decide

theorem witness_PendingSampleReachesChks :
    State.speedReady { State.reset with speedReady := true } = true ∧
      (∃ t, act tick { State.reset with speedReady := true } = .next t) ∧ tick ≠ .reset ∧ requests .tach tick = false ∧
      (∃ t, act .seq { State.reset with speedReady := true } = .next t) ∧ State.reset.phase = .chks ∧
      carries 0b0010000 .tach = true ∧ ∃ u, act (.event 0b0010000) { State.reset with speedReady := true } = .next u :=
  ⟨rfl, ⟨_, rfl⟩, by decide, by decide, ⟨_, rfl⟩, rfl, by decide, _, rfl⟩

theorem witness_IterationOrder :
    State.reset.Inv ∧ State.reset.phase = .chks ∧ State.reset.speedReady = false ∧
      State.Inv { State.reset with speedReady := true, captureSample := 3125 } :=
  ⟨inv_of_check (by decide), rfl, rfl, inv_of_check (by decide)⟩

theorem witness_IterationEndsWithinBound :
    State.reset.Inv ∧ State.reset.phase = .chks ∧ Turn.reset ∉ List.replicate 44 Turn.seq ∧
      State.reset.cfg.total + 14 ≤ seqCount (List.replicate 44 Turn.seq) ∧ (planned 30).Inv ∧
      (planned 30).cfg.total + 13 ≤ seqCount (List.replicate 43 Turn.seq) :=
  ⟨inv_of_check (by decide), rfl, by decide, by decide, inv_of_check (by decide), by decide⟩

/-- Two event words that request a capture and both confirms, and then the sequencer for ever: a fair sequence. -/
def pulseThenSequencer : Nat → Turn
  | 0 => .event 0b0010010
  | 1 => .event 0b0000001
  | _ => .seq

theorem pulseThenSequencer_late {m : Nat} (h : 2 ≤ m) : pulseThenSequencer m = .seq := by
  obtain ⟨k, rfl⟩ : ∃ k, m = k + 2 := ⟨m - 2, by omega⟩
  rfl

/-- The state after a turn, or the same state if the turn does not complete. -/
def advance (t : Turn) (s : State) : State :=
  match act t s with
  | .next u => u
  | _ => s

theorem act_eq_advance {t : Turn} {s : State} (h : answers (act t s) (fun _ => true) = true) :
    act t s = .next (advance t s) := by
  unfold advance
  cases hact : act t s with
  | next u => rfl
  | fault e => cases e
  | refused r => rw [hact] at h; cases h

/-- The states from reset under `pulseThenSequencer`. -/
def pulseStates : Nat → State
  | 0 => State.reset
  | n + 1 => advance (pulseThenSequencer n) (pulseStates n)

/-- Nothing is pending: the sequencer goes round `CHKS` and `CHKC`. -/
def idle (s : State) : Bool :=
  (decide (s.phase = .chks) || decide (s.phase = .chkc)) && !s.speedReady && !s.confirmUp && !s.confirmDn

theorem idle_step {s : State} (h : idle s = true) :
    answers (act .seq s) (fun _ => true) = true ∧ idle (advance .seq s) = true := by
  simp only [idle, Bool.and_eq_true, Bool.or_eq_true, decide_eq_true_eq, Bool.not_eq_true'] at h
  obtain ⟨⟨⟨phase | phase, ready⟩, up⟩, dn⟩ := h <;>
    simp [advance, act, phase, Phase.microOp, exec, execChks, execChkc, answers, idle, ready, up, dn]

theorem pulseStates_idle (k : Nat) : idle (pulseStates (16 + k)) = true := by
  induction k with
  | zero => decide
  | succ k ih =>
    have := (idle_step ih).2
    rwa [← pulseThenSequencer_late (m := 16 + k) (by omega)] at this

theorem pulseStates_execution : IsInfiniteExecution LegalConfig.reference pulseThenSequencer pulseStates := by
  refine ⟨rfl, fun n => act_eq_advance ?_⟩
  have first : ∀ n < 16, answers (act (pulseThenSequencer n) (pulseStates n)) (fun _ => true) = true := by decide
  rcases Nat.lt_or_ge n 16 with h | h
  · exact first n h
  · obtain ⟨k, rfl⟩ := Nat.exists_eq_add_of_le h
    rw [pulseThenSequencer_late (by omega)]
    exact (idle_step (pulseStates_idle k)).1

theorem witness_FairExecutionsServeCapturesAndConfirms :
    IsInfiniteExecution LegalConfig.reference pulseThenSequencer pulseStates ∧
      (∀ m, 2 ≤ m → pulseThenSequencer m ≠ .reset) ∧ Fair pulseThenSequencer ∧
      (pulseStates 2).speedReady = true ∧ (pulseStates 2).confirmUp = true ∧ (pulseStates 2).confirmDn = true ∧
      GearTablesComplete LegalConfig.reference.toConfig 0x7F :=
  ⟨pulseStates_execution, fun m h => by simp [pulseThenSequencer_late h],
    fun n => ⟨n + 2, by omega, pulseThenSequencer_late (by omega)⟩, by decide, by decide, by decide,
    reference_gear_tables_complete⟩

/-- An endless sequence of event words with no sequencer step: an execution that is not fair. -/
theorem witness_FairExecutionsServeCapturesAndConfirms_unfair :
    IsInfiniteExecution LegalConfig.reference (fun _ => .event 0) (fun _ => State.reset) ∧
      (∀ m, 0 ≤ m → (fun _ : Nat => Turn.event 0) m ≠ .reset) ∧
      (∀ m, 0 ≤ m → (fun _ : Nat => Turn.event 0) m ≠ .seq) ∧ ¬Fair (fun _ => .event 0) :=
  ⟨⟨rfl, fun _ => rfl⟩, fun _ _ => Turn.noConfusion, fun _ _ => Turn.noConfusion,
    fun h => Exists.elim (h 0) fun _ hm => Turn.noConfusion hm.2⟩

theorem witness_CaptureToStripEndToEnd :
    6000 = 71536 % 2 ^ State.reset.cfg.cntW ∧
      5000 = (if 6000 = 0 then 0 else State.reset.cfg.tickRate * 60 / (6000 * State.reset.cfg.ppr)) ∧
      15 = 5000 * State.reset.cfg.total / State.reset.cfg.ceil := by decide

end Sys2Proof.Tests
end

/-! # Proofs: every execution is safe

The layers, in order: the arithmetic of the operands; what the strip's view does with a word; the reset state; what each
branching operation can do; what every operation keeps and why it completes; the same for a turn, a step of the machine
and an execution. The obligations are settled at the end. -/

namespace Sys2Proof.Machine

/-! ## Results fit their registers -/

/-- The estimate of any sample is at most the rate constant, which fits `SPEED_W` (00_scope.md R7). -/
theorem speedOf_lt (c : LegalConfig) (sample : Nat) : speedOf c.toConfig sample < 2 ^ c.speedW := by
  unfold speedOf
  split
  · exact Nat.two_pow_pos _
  next nonzero =>
    have := c.ppr_range
    have denominator : c.ppr ≤ sample * c.ppr := Nat.le_mul_of_pos_left _ (by omega)
    exact (Nat.div_le_div_left denominator (by omega)).trans_lt c.rateConst_lt

/-- A speed below `2^SPEED_W` has a lit count below `2^LIT_W`, because `TOTAL < 2^8` (41_mapper_flash.md R158). -/
theorem litOf_lt (c : LegalConfig) {speed : Nat} (h : speed < 2 ^ c.speedW) :
    litOf c.toConfig speed < 2 ^ c.litW := by
  have total_lt : c.total < 2 ^ 8 := by have := c.total_range; omega
  calc litOf c.toConfig speed
      ≤ speed * c.total := Nat.div_le_self ..
    _ < 2 ^ c.speedW * 2 ^ 8 := Nat.mul_lt_mul'' h total_lt
    _ = 2 ^ (c.speedW + 8) := (Nat.pow_add ..).symm
    _ ≤ 2 ^ c.litW := Nat.pow_le_pow_right (by omega) c.litW_ge

/-- A pass never commands more segments than the strip has (41_mapper_flash.md R157). -/
theorem segEndOf_le_total (c : Config) (lit : Nat) (flash : Bool) : segEndOf c lit flash ≤ c.total := by
  unfold segEndOf
  split
  · split <;> omega
  · omega

theorem resetDisplay_lt (c : Config) : resetDisplay c < 2 ^ c.dispW := by
  unfold resetDisplay
  split
  · exact releaseBits_lt ..
  · exact Nat.two_pow_pos _

/-! ## The strip's view -/

/-- A write keeps the position inside the strip. -/
theorem StripView.write_ptr_le {total : Nat} {v : StripView} (x : SegmentValue) (h : v.ptr ≤ total) :
    (v.write total x).ptr ≤ total := by
  unfold StripView.write
  split
  · assumption
  · exact h

@[simp] theorem StripView.after_word_clr (total : Nat) (v : StripView) :
    v.after total (StripCommand.word .clr) = ⟨List.replicate total (some .off), 0⟩ := by
  simp [StripView.after, StripView.clear]

@[simp] theorem StripView.after_word_seg (total : Nat) (v : StripView) (l r g b : Byte) :
    v.after total (StripCommand.word (.seg l r g b)) = v.write total ⟨l, r, g, b⟩ := by
  simp [StripView.after]

/-- The view of a longer `StripOut` is the view of the shorter one after the last word. -/
theorem stripViewOf_append_word (total : Nat) (out : List StripWord) (w : StripWord) :
    stripViewOf total (out ++ [w]) = (stripViewOf total out).after total w := by
  simp [stripViewOf]

/-- Logging a word and letting the strip take it keeps the agreement (20_memory.md R75). -/
theorem State.StripAgrees.logWord_setStrip {s : State} (h : s.StripAgrees) {w : StripWord} {v : StripView}
    (hv : v = s.strip.after s.cfg.total w) : ((s.logWord w).setStrip v).StripAgrees := by
  unfold State.StripAgrees at h ⊢
  simp [stripViewOf_append_word, ← h, hv]

/-! ## The reset state -/

/-- The 14 phases have the codes 0 to 13 (10_state.md R41, R42). -/
theorem code_le (p : Phase) : p.code.toNat ≤ 13 := by
  cases p <;> decide

theorem resetOf_inv (c : LegalConfig) : (State.resetOf c).Inv where
  relaysExclusive := by simp [State.resetOf]
  reqUpMirrors := rfl
  reqDnMirrors := rfl
  gearLow := c.gearReset_range.1
  gearHigh := c.gearReset_range.2
  idxInPlan := Nat.le_refl 0
  planInStrip := Nat.zero_le _
  phaseLegal := code_le _
  redlineMeans := by simp [State.resetOf]
  speedFits := Nat.two_pow_pos _
  litFits := Nat.two_pow_pos _

theorem resetOf_widths (c : LegalConfig) : (State.resetOf c).Widths where
  counterFits := Nat.two_pow_pos _
  captureFits := Nat.two_pow_pos _
  latchFits := Nat.two_pow_pos _
  speedFits := Nat.two_pow_pos _
  litFits := Nat.two_pow_pos _
  timerFits := Nat.two_pow_pos _
  compareFits := c.flashPeriod_range.2
  segEndFits := Nat.two_pow_pos _
  segIdxFits := Nat.two_pow_pos _
  displayFits := resetDisplay_lt _
  imageLength := List.length_replicate
  ptrInStrip := Nat.zero_le _

theorem resetOf_planAgrees (c : LegalConfig) : (State.resetOf c).PlanAgrees := by
  simp [State.PlanAgrees, State.resetOf]

theorem resetOf_stripAgrees (c : LegalConfig) : (State.resetOf c).StripAgrees := rfl

/-! ## What each branching operation can do -/

section Branches

variable {s t : State}

theorem execTickf_next (h : execTickf s = .next t) :
    (flashTick s.cfg.toConfig s.flashTimer = s.flashCompare ∧
      t = { s with
        flashTimer := flashTick s.cfg.toConfig s.flashTimer
        flashPhase := !s.flashPhase
        flashCompare := flashRearm s.cfg.toConfig s.flashCompare }) ∨
    (flashTick s.cfg.toConfig s.flashTimer ≠ s.flashCompare ∧
      t = { s with flashTimer := flashTick s.cfg.toConfig s.flashTimer }) := by
  unfold execTickf at h
  split at h
  · exact .inl ⟨‹_›, by cases h; rfl⟩
  · exact .inr ⟨‹_›, by cases h; rfl⟩

theorem execChks_next (h : execChks s = .next t) :
    (s.speedReady = true ∧ t = { s with sampleLatch := s.captureSample, speedReady := false, phase := .est }) ∨
    (s.speedReady = false ∧ t = s.goto .chkc) := by
  unfold execChks at h
  split at h
  · exact .inl ⟨‹_›, by cases h; rfl⟩
  · exact .inr ⟨Bool.eq_false_of_not_eq_true ‹_›, by cases h; rfl⟩

theorem execChkc_next (h : execChkc s = .next t) :
    ((s.confirmUp || s.confirmDn) = true ∧ t = s.goto .shup) ∨
    ((s.confirmUp || s.confirmDn) = false ∧ t = s.goto .chks) := by
  unfold execChkc at h
  split at h
  · exact .inl ⟨‹_›, by cases h; rfl⟩
  · exact .inr ⟨Bool.eq_false_of_not_eq_true ‹_›, by cases h; rfl⟩

theorem execShup_next (h : execShup s = .next t) :
    (upAllowed s.confirmUp s.gearIndex = true ∧ t = { s with gearIndex := s.gearIndex + 1, phase := .dau }) ∨
    (upAllowed s.confirmUp s.gearIndex = false ∧
      t = { s with confirmUp := confirmAtBound s.cfg.toConfig s.confirmUp, phase := .shdn }) := by
  unfold execShup at h
  split at h
  · exact .inl ⟨‹_›, by cases h; rfl⟩
  · exact .inr ⟨Bool.eq_false_of_not_eq_true ‹_›, by cases h; rfl⟩

theorem execShdn_next (h : execShdn s = .next t) :
    (downAllowed s.confirmDn s.gearIndex = true ∧ t = { s with gearIndex := s.gearIndex - 1, phase := .dad }) ∨
    (downAllowed s.confirmDn s.gearIndex = false ∧
      t = { s with confirmDn := confirmAtBound s.cfg.toConfig s.confirmDn, phase := .chks }) := by
  unfold execShdn at h
  split at h
  · exact .inl ⟨‹_›, by cases h; rfl⟩
  · exact .inr ⟨Bool.eq_false_of_not_eq_true ‹_›, by cases h; rfl⟩

end Branches

/-- An allowed up transition starts below gear 6, so the gear above it is one more. -/
theorem gear_of_upAllowed {confirm : Bool} {g : Gear} (h : upAllowed confirm g = true) :
    confirm = true ∧ g.toNat < 6 ∧ (g + 1).toNat = g.toNat + 1 := by
  simp only [upAllowed, gearMax, Bool.and_eq_true, decide_eq_true_eq, BitVec.lt_def] at h
  obtain ⟨confirmed, below⟩ := h
  exact ⟨confirmed, below, by bv_omega⟩

/-- An allowed down transition starts above gear 1, so the gear below it is one less. -/
theorem gear_of_downAllowed {confirm : Bool} {g : Gear} (h : downAllowed confirm g = true) :
    confirm = true ∧ 1 < g.toNat ∧ (g - 1).toNat = g.toNat - 1 := by
  simp only [downAllowed, gearMin, Bool.and_eq_true, decide_eq_true_eq, BitVec.lt_def] at h
  obtain ⟨confirmed, above⟩ := h
  exact ⟨confirmed, above, by bv_omega⟩

/-! ## What every operation keeps

In each case `{ h with … }` names the clauses the operation's own writes touch; the others speak of fields it leaves
alone. -/

section Operations

variable {s t : State}

/-- Relays written with their mirrors keep the invariants, unless both are driven. -/
theorem State.Inv.setRelays (h : s.Inv) {up dn : Bool} (exclusive : ¬(up = true ∧ dn = true)) :
    (s.setRelays up dn).Inv :=
  { h with relaysExclusive := exclusive, reqUpMirrors := rfl, reqDnMirrors := rfl }

/-- A phase may be left for any other. -/
theorem State.Inv.goto (h : s.Inv) (p : Phase) : (s.goto p).Inv :=
  { h with phaseLegal := code_le p }

/-- Every operation keeps the invariants of 10_state.md R46, wherever it is run. -/
theorem exec_keeps_inv (i : Instr) (hs : s.Inv) (h : exec i s = .next t) : t.Inv := by
  cases i with
  | tickc | tach | nope | clr | seg => cases h; exact { hs with }
  | tickf => obtain ⟨-, rfl⟩ | ⟨-, rfl⟩ := execTickf_next h <;> exact { hs with }
  | svpu | svpd => cases h; exact hs.setRelays (by decide)
  | svcu | svcd => cases h; exact { hs.setRelays (up := false) (dn := false) (by decide) with }
  | chks =>
    obtain ⟨-, rfl⟩ | ⟨-, rfl⟩ := execChks_next h
    · exact { hs.goto .est with }
    · exact hs.goto .chkc
  | est => cases h; exact { hs.goto .map with speedFits := speedOf_lt .. }
  | map =>
    cases h
    exact { hs.goto .clr with
      idxInPlan := Nat.zero_le _
      planInStrip := segEndOf_le_total ..
      redlineMeans := decide_eq_true_iff
      litFits := litOf_lt s.cfg hs.speedFits }
  | sclr => cases (execSclr_eq s).symm.trans h; exact { hs.goto .seg with }
  | sseg =>
    obtain ⟨below, x, -, rfl⟩ | ⟨-, rfl⟩ := execSseg_next h
    · exact { hs with idxInPlan := below }
    · exact hs.goto .chkc
  | chkc => obtain ⟨-, rfl⟩ | ⟨-, rfl⟩ := execChkc_next h <;> exact hs.goto _
  | shup =>
    obtain ⟨allowed, rfl⟩ | ⟨-, rfl⟩ := execShup_next h
    · obtain ⟨-, below, gear⟩ := gear_of_upAllowed allowed
      exact { hs.goto .dau with
        gearLow := by simp only [gear]; omega
        gearHigh := by simp only [gear]; omega }
    · exact { hs.goto .shdn with }
  | shdn =>
    obtain ⟨allowed, rfl⟩ | ⟨-, rfl⟩ := execShdn_next h
    · obtain ⟨-, above, gear⟩ := gear_of_downAllowed allowed
      have high := hs.gearHigh
      exact { hs.goto .dad with
        gearLow := by simp only [gear]; omega
        gearHigh := by simp only [gear]; omega }
    · exact { hs.goto .chks with }
  | dasu | dasd => obtain ⟨a, -, rfl⟩ := displayAssert_eq_next h; exact { hs.goto _ with }
  | dmku | dmkd => obtain ⟨d, -, rfl⟩ := displayMask_eq_next h; exact { hs.goto _ with }
  | clru => cases h; exact { hs.goto .shdn with }
  | clrd => cases h; exact { hs.goto .chks with }
  | reset => cases h; exact { resetOf_inv s.cfg with }

/-- Every operation keeps every register within its width (00_scope.md R9). -/
theorem exec_keeps_widths (i : Instr) (hs : s.Widths) (h : exec i s = .next t) : t.Widths := by
  cases i with
  | svpu | svpd | svcu | svcd | nope | clru | clrd => cases h; exact { hs with }
  | tickc => cases h; exact { hs with counterFits := wrapTo_lt .. }
  | tach => cases h; exact { hs with captureFits := hs.counterFits, counterFits := Nat.two_pow_pos _ }
  | tickf =>
    obtain ⟨-, rfl⟩ | ⟨-, rfl⟩ := execTickf_next h
    · exact { hs with timerFits := wrapTo_lt .., compareFits := wrapTo_lt .. }
    · exact { hs with timerFits := wrapTo_lt .. }
  | chks =>
    obtain ⟨-, rfl⟩ | ⟨-, rfl⟩ := execChks_next h
    · exact { hs with latchFits := hs.captureFits }
    · exact { hs with }
  | est => cases h; exact { hs with speedFits := speedOf_lt .. }
  | map =>
    cases h
    exact { hs with
      litFits := litOf_lt s.cfg hs.speedFits
      segEndFits := (segEndOf_le_total ..).trans_lt s.cfg.total_lt_segW
      segIdxFits := Nat.two_pow_pos _ }
  | sclr =>
    cases (execSclr_eq s).symm.trans h
    exact { hs with imageLength := List.length_replicate, ptrInStrip := Nat.zero_le _ }
  | sseg =>
    obtain ⟨below, x, -, rfl⟩ | ⟨-, rfl⟩ := execSseg_next h
    · exact { hs with
        segIdxFits := Nat.lt_of_le_of_lt below hs.segEndFits
        imageLength := (StripView.write_length ..).trans hs.imageLength
        ptrInStrip := StripView.write_ptr_le _ hs.ptrInStrip }
    · exact { hs with }
  | chkc => obtain ⟨-, rfl⟩ | ⟨-, rfl⟩ := execChkc_next h <;> exact { hs with }
  | shup => obtain ⟨-, rfl⟩ | ⟨-, rfl⟩ := execShup_next h <;> exact { hs with }
  | shdn => obtain ⟨-, rfl⟩ | ⟨-, rfl⟩ := execShdn_next h <;> exact { hs with }
  | dasu | dasd =>
    obtain ⟨a, -, rfl⟩ := displayAssert_eq_next h
    exact { hs with displayFits := assertBits_lt .. }
  | dmku | dmkd =>
    obtain ⟨d, -, rfl⟩ := displayMask_eq_next h
    exact { hs with displayFits := releaseBits_lt .. }
  | clr => cases h; exact { hs with imageLength := List.length_replicate, ptrInStrip := Nat.zero_le _ }
  | seg =>
    cases h
    exact { hs with
      imageLength := (StripView.write_length ..).trans hs.imageLength
      ptrInStrip := StripView.write_ptr_le _ hs.ptrInStrip }
  | reset => cases h; exact { resetOf_widths s.cfg with }

end Operations

/-! ## The plan, the strip and the configuration

The operations outside the render pass leave all of it alone, which is proved once; the others are gone through by
name. -/

/-- What the render pass works on: the configuration, the plan with its sources, and the strip port. -/
def State.picture (s : State) : LegalConfig × Nat × Bool × Nat × List StripWord × StripView :=
  (s.cfg, s.litCount, s.phaseLatch, s.segEnd, s.stripOut, s.strip)

theorem picture_eq_iff {s t : State} :
    t.picture = s.picture ↔ t.cfg = s.cfg ∧ t.litCount = s.litCount ∧ t.phaseLatch = s.phaseLatch ∧
      t.segEnd = s.segEnd ∧ t.stripOut = s.stripOut ∧ t.strip = s.strip := by
  simp [State.picture]

/-- The rows of the opcode table that are words to the strip and no operation of the block (30_encoding.md R111,
R112): no turn runs them by themselves. -/
def isStripCommand : Instr → Bool
  | .clr => true
  | .seg .. => true
  | _ => false

/-- The rows that write something of the picture. -/
def writesPicture : Instr → Bool
  | .map => true
  | .sclr => true
  | .sseg => true
  | .reset => true
  | i => isStripCommand i

section Picture

variable {s t : State}

theorem exec_keeps_picture {i : Instr} (hi : writesPicture i = false) (h : exec i s = .next t) :
    t.picture = s.picture := by
  cases i with
  | map | sclr | sseg | clr | seg | reset => cases hi
  | tickc | tach | svpu | svpd | svcu | svcd | nope | est | clru | clrd => cases h; rfl
  | tickf => obtain ⟨-, rfl⟩ | ⟨-, rfl⟩ := execTickf_next h <;> rfl
  | chks => obtain ⟨-, rfl⟩ | ⟨-, rfl⟩ := execChks_next h <;> rfl
  | chkc => obtain ⟨-, rfl⟩ | ⟨-, rfl⟩ := execChkc_next h <;> rfl
  | shup => obtain ⟨-, rfl⟩ | ⟨-, rfl⟩ := execShup_next h <;> rfl
  | shdn => obtain ⟨-, rfl⟩ | ⟨-, rfl⟩ := execShdn_next h <;> rfl
  | dasu | dasd => obtain ⟨a, -, rfl⟩ := displayAssert_eq_next h; rfl
  | dmku | dmkd => obtain ⟨d, -, rfl⟩ := displayMask_eq_next h; rfl

theorem State.PlanAgrees.of_picture_eq (hs : s.PlanAgrees) (h : t.picture = s.picture) : t.PlanAgrees := by
  obtain ⟨cfg, lit, latch, plan, -, -⟩ := picture_eq_iff.1 h
  simpa only [State.PlanAgrees, cfg, lit, latch, plan] using hs

theorem State.StripAgrees.of_picture_eq (hs : s.StripAgrees) (h : t.picture = s.picture) : t.StripAgrees := by
  obtain ⟨cfg, -, -, -, out, strip⟩ := picture_eq_iff.1 h
  simpa only [State.StripAgrees, cfg, out, strip] using hs

/-- No operation writes the configuration (10_state.md R47). -/
theorem exec_keeps_cfg (i : Instr) (h : exec i s = .next t) : t.cfg = s.cfg := by
  cases i with
  | map | clr | seg | reset => cases h; rfl
  | sclr => cases (execSclr_eq s).symm.trans h; rfl
  | sseg => obtain ⟨-, x, -, rfl⟩ | ⟨-, rfl⟩ := execSseg_next h <;> rfl
  | _ => exact (picture_eq_iff.1 (exec_keeps_picture rfl h)).1

/-- The plan stays the one its sources call for: only `MAP` and `RESET` write any of them (10_state.md R32). -/
theorem exec_keeps_planAgrees (i : Instr) (hs : s.PlanAgrees) (h : exec i s = .next t) : t.PlanAgrees := by
  cases i with
  | map => cases h; rfl
  | reset => cases h; exact resetOf_planAgrees s.cfg
  | clr | seg => cases h; exact hs
  | sclr => cases (execSclr_eq s).symm.trans h; exact hs
  | sseg => obtain ⟨-, x, -, rfl⟩ | ⟨-, rfl⟩ := execSseg_next h <;> exact hs
  | _ => exact hs.of_picture_eq (exec_keeps_picture rfl h)

/-- The strip's view stays the fold of `StripOut` (20_memory.md R75): only `SCLR` and `SSEG`, which emit, and `RESET`
write either. -/
theorem exec_keeps_stripAgrees {i : Instr} (hi : isStripCommand i = false) (hs : s.StripAgrees)
    (h : exec i s = .next t) : t.StripAgrees := by
  cases i with
  | clr | seg => cases hi
  | sclr =>
    cases (execSclr_eq s).symm.trans h
    exact hs.logWord_setStrip (StripView.after_word_clr ..).symm
  | sseg =>
    obtain ⟨-, x, -, rfl⟩ | ⟨-, rfl⟩ := execSseg_next h
    · exact hs.logWord_setStrip (StripView.after_word_seg ..).symm
    · exact hs
  | map => cases h; exact hs
  | reset => cases h; exact resetOf_stripAgrees s.cfg
  | _ => exact hs.of_picture_eq (exec_keeps_picture rfl h)

end Picture

/-! ## Every operation completes -/

/-- With a gear of at least 1 the assert table has an entry to write. -/
theorem displayAssert_completes {s : State} (h : s.Inv) (p : Phase) : ∃ t, displayAssert p s = .next t := by
  obtain ⟨a, ha, -⟩ := dispAssertAt_some s.cfg h.gearLow
  exact ⟨_, by rw [displayAssert, ha]; rfl⟩

/-- With a gear of at least 1 the de-assert table has an entry to write. -/
theorem displayMask_completes {s : State} (h : s.Inv) (p : Phase) : ∃ t, displayMask p s = .next t := by
  obtain ⟨d, hd, -⟩ := dispDeassertAt_some s.cfg h.gearLow
  exact ⟨_, by rw [displayMask, hd]; rfl⟩

/-- Below `SegEnd`, which is within the strip, every segment has its colour. -/
theorem execSseg_completes {s : State} (h : s.Inv) : ∃ t, execSseg s = .next t := by
  unfold execSseg
  split
  next below =>
    rw [payloadColor_some _ _ (below.trans_le h.planInStrip)]
    simp [withEntry]
  · exact ⟨_, rfl⟩

/-- No operation stops in a state with the invariants (60_exceptions.md R250). -/
theorem exec_completes (i : Instr) {s : State} (h : s.Inv) : ∃ t, exec i s = .next t := by
  cases i with
  | dasu | dasd => exact displayAssert_completes h _
  | dmku | dmkd => exact displayMask_completes h _
  | sseg => exact execSseg_completes h
  | sclr => exact ⟨_, execSclr_eq s⟩
  | tickf => simp only [exec, execTickf]; split <;> exact ⟨_, rfl⟩
  | chks => simp only [exec, execChks]; split <;> exact ⟨_, rfl⟩
  | chkc => simp only [exec, execChkc]; split <;> exact ⟨_, rfl⟩
  | shup => simp only [exec, execShup]; split <;> exact ⟨_, rfl⟩
  | shdn => simp only [exec, execShdn]; split <;> exact ⟨_, rfl⟩
  | tickc | tach | svpu | svpd | svcu | svcd | nope | est | map | clru | clrd | clr | seg | reset => exact ⟨_, rfl⟩

/-! ## From operations to turns, steps and executions

What every operation of the block keeps, every turn keeps, and so every step of the machine and every execution. The
invariants of 10_state.md R46 also make each of them complete. -/

/-- An event word asks for no strip command. -/
theorem isStripCommand_of_mem_decodeEvent {w : EventWord} {i : Instr} (h : i ∈ decodeEvent w) :
    isStripCommand i = false := by
  have edge (j : Instr) (hj : j ∈ decodeEdge w) : isStripCommand j = false := by
    unfold decodeEdge at hj
    split_ifs at hj <;> simp_all [isStripCommand]
  unfold decodeEvent at h
  split at h
  · cases List.mem_singleton.1 h; rfl
  · simp only [List.mem_append, List.mem_ite_nil_right, List.mem_singleton] at h
    obtain ((⟨-, rfl⟩ | ⟨-, rfl⟩) | ⟨-, rfl⟩) | h := h
    · rfl
    · rfl
    · rfl
    · exact edge i h

/-- No phase selects a strip command. -/
theorem isStripCommand_microOp (p : Phase) : isStripCommand p.microOp = false := by
  cases p <;> rfl

section Lifting

variable {P : State → Prop}

/-- What each of several operations keeps, all of them in order keep. -/
theorem runOps_keeps {ops : List Instr} (keeps : ∀ i ∈ ops, ∀ s t, P s → exec i s = .next t → P t) {s t : State}
    (hs : P s) (h : runOps ops s = .next t) : P t := by
  induction ops generalizing s with
  | nil => cases h; exact hs
  | cons i ops ih =>
    obtain ⟨u, hu, h⟩ := andThen_eq_next h
    exact ih (fun j hj => keeps j (.tail _ hj)) (keeps i (.head _) s u hs hu) h

/-- What every operation of the block keeps, every turn keeps. -/
theorem act_keeps (keeps : ∀ i, isStripCommand i = false → ∀ s t, P s → exec i s = .next t → P t) {turn : Turn}
    {s t : State} (hs : P s) (h : act turn s = .next t) : P t := by
  cases turn with
  | event w => exact runOps_keeps (fun i hi => keeps i (isStripCommand_of_mem_decodeEvent hi)) hs h
  | seq => exact keeps _ (isStripCommand_microOp _) s t hs h
  | reset => exact keeps .reset rfl s t hs h

end Lifting

/-- A step of the machine is the next turn, taken on the state with that turn off (44_step_and_loop.md R220). -/
theorem step_eq_act (s : State) : step s = act (s.turnAt 0) (s.dropTurns 1) := by
  rw [step, nextTurn_eq]

theorem runOps_completes (ops : List Instr) {s : State} (h : s.Inv) : ∃ t, runOps ops s = .next t := by
  induction ops generalizing s with
  | nil => exact ⟨s, rfl⟩
  | cons i ops ih =>
    obtain ⟨u, hu⟩ := exec_completes i h
    obtain ⟨t, ht⟩ := ih (exec_keeps_inv i h hu)
    exact ⟨t, by rw [runOps, hu, andThen_next, ht]⟩

/-- Every turn completes from a state with the invariants (60_exceptions.md R250). -/
theorem act_completes (turn : Turn) {s : State} (h : s.Inv) : ∃ t, act turn s = .next t := by
  cases turn with
  | event w => exact runOps_completes _ h
  | seq => exact exec_completes _ h
  | reset => exact exec_completes .reset h

theorem act_keeps_inv {turn : Turn} {s t : State} (hs : s.Inv) (h : act turn s = .next t) : t.Inv :=
  act_keeps (fun i _ _ _ => exec_keeps_inv i) hs h

theorem act_keeps_widths {turn : Turn} {s t : State} (hs : s.Widths) (h : act turn s = .next t) : t.Widths :=
  act_keeps (fun i _ _ _ => exec_keeps_widths i) hs h

theorem act_keeps_planAgrees {turn : Turn} {s t : State} (hs : s.PlanAgrees) (h : act turn s = .next t) :
    t.PlanAgrees :=
  act_keeps (fun i _ _ _ => exec_keeps_planAgrees i) hs h

theorem act_keeps_stripAgrees {turn : Turn} {s t : State} (hs : s.StripAgrees) (h : act turn s = .next t) :
    t.StripAgrees :=
  act_keeps (fun _ hi _ _ => exec_keeps_stripAgrees hi) hs h

theorem act_keeps_cfg {turn : Turn} {s t : State} (h : act turn s = .next t) : t.cfg = s.cfg :=
  act_keeps (P := fun u => u.cfg = s.cfg) (fun i _ _ _ hu h => (exec_keeps_cfg i h).trans hu) rfl h

/-! ## Executions -/

/-- A state of a safe execution: the invariants, the widths, and a strip that shows what was emitted. -/
structure State.Safe (s : State) : Prop where
  inv : s.Inv
  widths : s.Widths
  stripAgrees : s.StripAgrees

theorem resetOf_safe (c : LegalConfig) : (State.resetOf c).Safe :=
  ⟨resetOf_inv c, resetOf_widths c, resetOf_stripAgrees c⟩

/-- From a safe state every turn completes, in a safe state. -/
theorem act_safe (turn : Turn) {s : State} (hs : s.Safe) : ∃ t, act turn s = .next t ∧ t.Safe := by
  obtain ⟨t, ht⟩ := act_completes turn hs.inv
  exact ⟨t, ht, act_keeps_inv hs.inv ht, act_keeps_widths hs.widths ht, act_keeps_stripAgrees hs.stripAgrees ht⟩

/-- From a safe state every list of turns completes, in a safe state. -/
theorem runTurns_safe (ts : List Turn) {s : State} (hs : s.Safe) : ∃ t, runTurns ts s = .next t ∧ t.Safe := by
  induction ts generalizing s with
  | nil => exact ⟨s, rfl, hs⟩
  | cons turn ts ih =>
    obtain ⟨u, hu, safe⟩ := act_safe turn hs
    obtain ⟨t, ht, safe⟩ := ih safe
    exact ⟨t, by rw [runTurns, hu, andThen_next, ht], safe⟩

/-- The states an endless sequence of turns leads through from a start; a turn that stops would leave the state as it
is. -/
def statesAlong (τ : Nat → Turn) (start : State) : Nat → State
  | 0 => start
  | n + 1 =>
    match act (τ n) (statesAlong τ start n) with
    | .next t => t
    | _ => statesAlong τ start n

/-- Where a turn completes, the next state is the one it left. -/
theorem statesAlong_succ {τ : Nat → Turn} {start t : State} {n : Nat}
    (h : act (τ n) (statesAlong τ start n) = .next t) : statesAlong τ start (n + 1) = t := by
  rw [statesAlong, h]

theorem statesAlong_safe (τ : Nat → Turn) {start : State} (h : start.Safe) (n : Nat) :
    (statesAlong τ start n).Safe := by
  induction n with
  | zero => exact h
  | succ n ih =>
    obtain ⟨t, ht, safe⟩ := act_safe (τ n) ih
    rwa [statesAlong_succ ht]

/-- From a safe state no turn stops, so the states follow the turns without end. -/
theorem statesAlong_followsTurns (τ : Nat → Turn) {start : State} (h : start.Safe) :
    FollowsTurns τ (statesAlong τ start) := by
  intro n
  obtain ⟨t, ht, -⟩ := act_safe (τ n) (statesAlong_safe τ h n)
  rw [statesAlong_succ ht, ht]

/-! ## The obligations -/

/-- Settles O57, by induction over the turns: the reset state is safe, and from a safe state every turn completes in a
safe state. -/
theorem everyExecutionIsSafe : Obligations.EveryExecutionIsSafe := by
  constructor
  · intro c ts
    obtain ⟨t, ht, safe⟩ := runTurns_safe ts (resetOf_safe c)
    exact ⟨t, ht, safe.inv, safe.widths, safe.stripAgrees⟩
  · intro c τ
    refine ⟨statesAlong τ (State.resetOf c), ⟨rfl, statesAlong_followsTurns τ (resetOf_safe c)⟩, fun n => ?_⟩
    have safe := statesAlong_safe τ (resetOf_safe c) n
    exact ⟨safe.inv, safe.widths, safe.stripAgrees⟩

/-- Settles O50: a step is a turn on a state with the same registers, and every turn keeps the widths, the plan and the
configuration. -/
theorem widthsAndPlanKeptByStep : Obligations.WidthsAndPlanKeptByStep := by
  intro s t widths plan h
  rw [step_eq_act] at h
  have widths : (s.dropTurns 1).Widths := { widths with }
  have plan : (s.dropTurns 1).PlanAgrees := plan
  have cfg : t.cfg = (s.dropTurns 1).cfg := act_keeps_cfg h
  exact ⟨act_keeps_widths widths h, act_keeps_planAgrees plan h, cfg⟩

end Sys2Proof.Machine

/-! # Proofs: the phases of an iteration

The layers, in order: what an event step may write; where a sequencer step leads; how many sequencer steps are left of an
iteration, and that each takes one off; the first time the turns lead to `P_CHKS`. The obligations are settled at the
end. -/

namespace Sys2Proof.Machine

/-! ## The frame of an event step -/

/-- The operations an event word can ask for (30_encoding.md R101, R104). -/
def eventOps : List Instr := [.tickc, .tickf, .tach, .svpu, .svpd, .svcu, .svcd, .nope]

theorem mem_eventOps_of_mem_decodeEdge {w : EventWord} {i : Instr} (h : i ∈ decodeEdge w) : i ∈ eventOps := by
  unfold decodeEdge at h
  split_ifs at h <;> simp_all [eventOps]

theorem mem_eventOps_of_mem_decodeEvent {w : EventWord} {i : Instr} (h : i ∈ decodeEvent w) : i ∈ eventOps := by
  unfold decodeEvent at h
  split at h
  · cases List.mem_singleton.1 h; decide
  · simp only [List.mem_append, List.mem_ite_nil_right, List.mem_singleton] at h
    obtain ((⟨-, rfl⟩ | ⟨-, rfl⟩) | ⟨-, rfl⟩) | edge := h
    · decide
    · decide
    · decide
    · exact mem_eventOps_of_mem_decodeEdge edge

/-- `t` differs from `s` at most in the elements of the event context (10_state.md R45). -/
def EventFrame (s t : State) : Prop :=
  t = { s with
    intervalCounter := t.intervalCounter, captureSample := t.captureSample, speedReady := t.speedReady
    flashTimer := t.flashTimer, flashCompare := t.flashCompare, flashPhase := t.flashPhase
    actUp := t.actUp, actDn := t.actDn, reqUp := t.reqUp, reqDn := t.reqDn
    confirmUp := t.confirmUp, confirmDn := t.confirmDn }

section Frame

variable {s t u : State}

theorem EventFrame.refl (s : State) : EventFrame s s := rfl

theorem EventFrame.trans (before : EventFrame s t) (after : EventFrame t u) : EventFrame s u := by
  unfold EventFrame at before after
  exact after.trans (by rw [before])

theorem EventFrame.cfg (h : EventFrame s t) : t.cfg = s.cfg := by rw [h]
theorem EventFrame.segEnd (h : EventFrame s t) : t.segEnd = s.segEnd := by rw [h]
theorem EventFrame.segIdx (h : EventFrame s t) : t.segIdx = s.segIdx := by rw [h]
theorem EventFrame.phase (h : EventFrame s t) : t.phase = s.phase := by rw [h]

theorem exec_eventFrame {i : Instr} (hi : i ∈ eventOps) (h : exec i s = .next t) : EventFrame s t := by
  cases i with
  | tickc | tach | svpu | svpd | svcu | svcd | nope => cases h; rfl
  | tickf => obtain ⟨-, rfl⟩ | ⟨-, rfl⟩ := execTickf_next h <;> rfl
  | _ => simp [eventOps] at hi

theorem act_event_frame {w : EventWord} (h : act (.event w) s = .next t) : EventFrame s t :=
  runOps_keeps (P := EventFrame s)
    (fun _ hi _ _ frame hexec => frame.trans (exec_eventFrame (mem_eventOps_of_mem_decodeEvent hi) hexec))
    (EventFrame.refl s) h

end Frame

/-! ## The phase after a sequencer step -/

section Phases

variable {s t : State}

/-- The micro-operation of the current phase leads to a successor of it (10_state.md R41). `SSEG` alone may leave the
phase as it is. -/
theorem exec_microOp_phase {p : Phase} (phase : s.phase = p) (h : exec p.microOp s = .next t) :
    t.phase ∈ successorsOf p := by
  cases p with
  | chks => obtain ⟨-, rfl⟩ | ⟨-, rfl⟩ := execChks_next h <;> simp [successorsOf]
  | est | map | clu | cld => cases h; exact .head _
  | clr => cases (execSclr_eq s).symm.trans h; exact .head _
  | seg => obtain ⟨-, x, -, rfl⟩ | ⟨-, rfl⟩ := execSseg_next h <;> simp [successorsOf, phase]
  | chkc => obtain ⟨-, rfl⟩ | ⟨-, rfl⟩ := execChkc_next h <;> simp [successorsOf]
  | shup => obtain ⟨-, rfl⟩ | ⟨-, rfl⟩ := execShup_next h <;> simp [successorsOf]
  | shdn => obtain ⟨-, rfl⟩ | ⟨-, rfl⟩ := execShdn_next h <;> simp [successorsOf]
  | dau | dad => obtain ⟨a, -, rfl⟩ := displayAssert_eq_next h; exact .head _
  | dmu | dmd => obtain ⟨d, -, rfl⟩ := displayMask_eq_next h; exact .head _

theorem act_seq_phase (h : act .seq s = .next t) : t.phase ∈ successorsOf s.phase :=
  exec_microOp_phase rfl h

/-- `CHKS` never leads back to its own phase, so an iteration has at least two steps. -/
theorem act_seq_leaves_chks (chks : s.phase = .chks) (h : act .seq s = .next t) : t.phase ≠ .chks := by
  have succ := act_seq_phase h
  rw [chks] at succ
  exact fun back => absurd (back ▸ succ) (by decide)

/-! ## The sequencer steps left of an iteration -/

/-- At most how many sequencer steps lead from a phase to `P_CHKS`, when the pass has `left` segments to go. This is the
longest way through the table of 10_state.md R41. -/
def stepsFrom (total left : Nat) : Phase → Nat
  | .chks => 0
  | .est => total + 13
  | .map => total + 12
  | .clr => total + 11
  | .seg => left + 10
  | .chkc => 9
  | .shup => 8
  | .dau => 7
  | .dmu => 6
  | .clu => 5
  | .shdn => 4
  | .dad => 3
  | .dmd => 2
  | .cld => 1

/-- `stepsFrom` at the state's own phase and plan. -/
def State.stepsLeft (s : State) : Nat := stepsFrom s.cfg.total (s.segEnd - s.segIdx) s.phase

theorem stepsFrom_le {total left : Nat} (fits : left ≤ total) (p : Phase) : stepsFrom total left p ≤ total + 13 := by
  cases p <;> simp only [stepsFrom] <;> omega

/-- A way along the successor table gets shorter, where the step that stays at `P_SEG` has done a segment. -/
theorem stepsFrom_lt {total left left' : Nat} {p q : Phase} (away : p ≠ .chks) (succ : q ∈ successorsOf p)
    (fits : left' ≤ total) (advances : p = .seg → q = .seg → left' < left) :
    stepsFrom total left' q < stepsFrom total left p := by
  cases p with
  | chks => exact absurd rfl away
  | seg =>
    obtain rfl | rfl : q = .seg ∨ q = .chkc := by simpa [successorsOf] using succ
    · exact Nat.add_lt_add_right (advances rfl rfl) 10
    · simp only [stepsFrom]; omega
  | chkc | shup | shdn =>
    simp only [successorsOf, List.mem_cons, List.not_mem_nil, or_false] at succ
    obtain rfl | rfl := succ <;> simp [stepsFrom]
  | est | map | clr | dau | dmu | clu | dad | dmd | cld =>
    obtain rfl := List.mem_singleton.1 succ
    simp only [stepsFrom]; omega

theorem phase_of_stepsLeft_eq_zero (h : s.stepsLeft = 0) : s.phase = .chks := by
  unfold State.stepsLeft at h
  cases phase : s.phase <;> simp [phase, stepsFrom] at h ⊢

theorem State.Inv.left_le_total (h : s.Inv) : s.segEnd - s.segIdx ≤ s.cfg.total :=
  (Nat.sub_le ..).trans h.planInStrip

theorem State.Inv.stepsLeft_le (h : s.Inv) : s.stepsLeft ≤ s.cfg.total + 13 := stepsFrom_le h.left_le_total _

/-- An `SSEG` that stays in the pass leaves one segment less to do (43_strip_sequencer.md R202). -/
theorem act_seq_advances (h : act .seq s = .next t) (before : s.phase = .seg) (after : t.phase = .seg) :
    t.segEnd - t.segIdx < s.segEnd - s.segIdx := by
  simp only [act, before] at h
  obtain ⟨below, x, -, rfl⟩ | ⟨-, rfl⟩ := execSseg_next h
  · exact Nat.sub_succ_lt_self _ _ below
  · cases after

/-- Away from `P_CHKS` a sequencer step takes at least one off the steps left. -/
theorem act_seq_stepsLeft_lt (hs : s.Inv) (away : s.phase ≠ .chks) (h : act .seq s = .next t) :
    t.stepsLeft < s.stepsLeft := by
  have fits := (act_keeps_inv hs h).left_le_total
  rw [act_keeps_cfg h] at fits
  rw [State.stepsLeft, act_keeps_cfg h]
  exact stepsFrom_lt away (act_seq_phase h) fits (act_seq_advances h)

/-- Events take no part in the way to `P_CHKS`. -/
theorem EventFrame.stepsLeft (h : EventFrame s t) : t.stepsLeft = s.stepsLeft := by
  simp only [State.stepsLeft, h.cfg, h.segEnd, h.segIdx, h.phase]

end Phases

/-! ## The first time at `P_CHKS` -/

theorem seqCount_seq_cons (ts : List Turn) : seqCount (.seq :: ts) = seqCount ts + 1 := List.count_cons_self

theorem seqCount_event_cons (w : EventWord) (ts : List Turn) : seqCount (.event w :: ts) = seqCount ts :=
  List.count_cons_of_ne (by simp)

theorem seqCount_cons (turn : Turn) (ts : List Turn) : seqCount (turn :: ts) = seqCount [turn] + seqCount ts :=
  List.count_append (l₁ := [turn])

/-- The turns `pre` lead from `s` to `t` at `P_CHKS`, and no shorter part of them from `s` on with at least `k`
sequencer steps ends there. -/
structure FirstChks (k : Nat) (s : State) (pre : List Turn) (t : State) : Prop where
  run : runTurns pre s = .next t
  atChks : t.phase = .chks
  notBefore : ∀ p q, pre = p ++ q → q ≠ [] → k ≤ seqCount p → ∃ u, runTurns p s = .next u ∧ u.phase ≠ .chks

section FirstChks

variable {s t u : State} {pre : List Turn} {k : Nat}

theorem FirstChks.nil (h : s.phase = .chks) : FirstChks k s [] s where
  run := rfl
  atChks := h
  notBefore _ _ split rest := absurd (List.append_eq_nil_iff.1 split.symm).2 rest

/-- One more turn in front: the steps it takes count, and the start counts as a place to be if no step is asked for. -/
theorem FirstChks.cons {turn : Turn} (h : act turn s = .next u) (arrival : FirstChks (k - seqCount [turn]) u pre t)
    (start : k = 0 → s.phase ≠ .chks) : FirstChks k s (turn :: pre) t where
  run := by rw [runTurns, h, andThen_next, arrival.run]
  atChks := arrival.atChks
  notBefore p q split rest count := by
    cases p with
    | nil => exact ⟨s, rfl, start (Nat.le_zero.1 count)⟩
    | cons head p =>
      obtain ⟨rfl, tail⟩ := List.cons_eq_cons.1 split
      rw [seqCount_cons] at count
      obtain ⟨v, hv, away⟩ := arrival.notBefore p q tail rest (by omega)
      exact ⟨v, by rw [runTurns, h, andThen_next, hv], away⟩

/-- From a state with the invariants, turns with as many sequencer steps as are left lead to `P_CHKS`, by at least one
of these steps if the state is elsewhere. -/
theorem exists_firstChks {ts : List Turn} (hs : s.Inv) (noReset : .reset ∉ ts) (enough : s.stepsLeft ≤ seqCount ts) :
    ∃ pre post t, ts = pre ++ post ∧ (s.phase ≠ .chks → 1 ≤ seqCount pre) ∧ seqCount pre ≤ s.stepsLeft ∧
      FirstChks 0 s pre t := by
  induction ts generalizing s with
  | nil =>
    have chks := phase_of_stepsLeft_eq_zero (Nat.le_zero.1 enough)
    exact ⟨[], [], s, rfl, absurd chks, Nat.zero_le _, .nil chks⟩
  | cons turn ts ih =>
    by_cases away : s.phase = .chks
    · exact ⟨[], turn :: ts, s, rfl, absurd away, Nat.zero_le _, .nil away⟩
    obtain ⟨u, hu⟩ := act_completes turn hs
    have inv := act_keeps_inv hs hu
    have noReset' : .reset ∉ ts := List.not_mem_of_not_mem_cons noReset
    cases turn with
    | reset => exact absurd List.mem_cons_self noReset
    | seq =>
      have fewer := act_seq_stepsLeft_lt hs away hu
      rw [seqCount_seq_cons] at enough
      obtain ⟨pre, post, t, rfl, -, short, arrival⟩ := ih inv noReset' (by omega)
      refine ⟨.seq :: pre, post, t, rfl, fun _ => ?_, ?_, arrival.cons hu fun _ => away⟩ <;>
        rw [seqCount_seq_cons] <;> omega
    | event w =>
      have frame := act_event_frame hu
      rw [seqCount_event_cons, ← frame.stepsLeft] at enough
      obtain ⟨pre, post, t, rfl, moves, short, arrival⟩ := ih inv noReset' enough
      rw [frame.phase] at moves
      rw [frame.stepsLeft] at short
      exact ⟨.event w :: pre, post, t, rfl, by rwa [seqCount_event_cons], by rwa [seqCount_event_cons],
        arrival.cons hu fun _ => away⟩

/-- From `P_CHKS` the first sequencer step leaves the phase, and what is left of the iteration leads back to it. -/
theorem exists_firstReturn {ts : List Turn} (hs : s.Inv) (chks : s.phase = .chks) (noReset : .reset ∉ ts)
    (enough : s.cfg.total + 14 ≤ seqCount ts) :
    ∃ pre post t, ts = pre ++ post ∧ 2 ≤ seqCount pre ∧ seqCount pre ≤ s.cfg.total + 14 ∧ FirstChks 1 s pre t := by
  induction ts generalizing s with
  | nil => exact absurd enough (Nat.not_succ_le_zero _)
  | cons turn ts ih =>
    obtain ⟨u, hu⟩ := act_completes turn hs
    have inv := act_keeps_inv hs hu
    have noReset' : .reset ∉ ts := List.not_mem_of_not_mem_cons noReset
    cases turn with
    | reset => exact absurd List.mem_cons_self noReset
    | seq =>
      have bound := inv.stepsLeft_le
      rw [act_keeps_cfg hu] at bound
      rw [seqCount_seq_cons] at enough
      obtain ⟨pre, post, t, rfl, moves, short, arrival⟩ := exists_firstChks inv noReset' (by omega)
      have moved := moves (act_seq_leaves_chks chks hu)
      refine ⟨.seq :: pre, post, t, rfl, ?_, ?_, arrival.cons hu (absurd · Nat.one_ne_zero)⟩ <;>
        rw [seqCount_seq_cons] <;> omega
    | event w =>
      have frame := act_event_frame hu
      rw [seqCount_event_cons, ← frame.cfg] at enough
      obtain ⟨pre, post, t, rfl, moved, short, arrival⟩ := ih inv (frame.phase.trans chks) noReset' enough
      rw [frame.cfg] at short
      exact ⟨.event w :: pre, post, t, rfl, by rwa [seqCount_event_cons], by rwa [seqCount_event_cons],
        arrival.cons hu (absurd · Nat.one_ne_zero)⟩

end FirstChks

/-! ## The obligations -/

/-- Settles O51: a case per micro-operation, and the frame of an event step. -/
theorem phaseFollowsSuccessorTable : Obligations.PhaseFollowsSuccessorTable :=
  fun _ _ => ⟨act_seq_phase, fun _ h => (act_event_frame h).phase⟩

/-- Settles O56: the steps left are a measure every sequencer step away from `P_CHKS` lowers and no event changes; at
most `TOTAL + 13` are left of any iteration, one more from its start. -/
theorem iterationEndsWithinBound : Obligations.IterationEndsWithinBound := by
  constructor
  · intro s ts hs chks noReset enough
    obtain ⟨pre, post, t, split, atLeast, atMost, arrival⟩ := exists_firstReturn hs chks noReset enough
    exact ⟨pre, post, t, split, atLeast, atMost, arrival.run, arrival.atChks, arrival.notBefore⟩
  · intro s ts hs noReset enough
    have bound := hs.stepsLeft_le
    obtain ⟨pre, post, t, split, -, short, arrival⟩ := exists_firstChks hs noReset (bound.trans enough)
    exact ⟨pre, post, t, split, short.trans bound, arrival.run, arrival.atChks⟩

end Sys2Proof.Machine

/-! # Proofs: the tables and the strip's view

What a read outside a lookup table does (20_memory.md R71, log entry 7), and the strip's view over a step of the machine
(20_memory.md R75). -/

namespace Sys2Proof.Machine

/-! ## Reads outside the tables -/

/-- The display tables start at index 1, so gear 0 has no assert entry (00_scope.md R14). -/
theorem dispAssertAt_gear_zero (c : Config) : dispAssertAt c 0 = none := rfl

/-- Nor has gear 0 a de-assert entry. -/
theorem dispDeassertAt_gear_zero (c : Config) : dispDeassertAt c 0 = none := rfl

/-- In the graduated regime the payload is read from `SegColor`, which ends at `TOTAL` (20_memory.md R71). -/
theorem payloadColor_graduated_none (c : Config) {i : Nat} (h : c.total ≤ i) : payloadColor c false i = none := by
  simp [payloadColor, segColorAt, Nat.not_lt.2 h]

section Refused

variable {s : State}

theorem displayAssert_gear_zero (gear : s.gearIndex = 0) (p : Phase) :
    displayAssert p s = .refused (.indexOutsideTable .dispAssert) := by
  rw [displayAssert, gear, dispAssertAt_gear_zero, withEntry]

theorem displayMask_gear_zero (gear : s.gearIndex = 0) (p : Phase) :
    displayMask p s = .refused (.indexOutsideTable .dispDeassert) := by
  rw [displayMask, gear, dispDeassertAt_gear_zero, withEntry]

theorem execSseg_beyond_total (graduated : s.redline = false) (below : s.segIdx < s.segEnd)
    (beyond : s.cfg.total ≤ s.segIdx) : execSseg s = .refused (.indexOutsideTable .segColor) := by
  rw [execSseg, if_pos below, graduated, payloadColor_graduated_none _ beyond, withEntry]

end Refused

/-! ## The obligations -/

/-- Settles O34: a step is a turn on a state with the same strip and `StripOut`, and no turn runs a strip command that its
`StripOut` does not log. -/
theorem stripViewFollowsStripOut : Obligations.StripViewFollowsStripOut := by
  intro s t agrees h
  rw [step_eq_act] at h
  have agrees : (s.dropTurns 1).StripAgrees := agrees
  exact act_keeps_stripAgrees agrees h

/-- Settles O29: gear 0 lies below the display tables, and `TOTAL` is the first index above `SegColor`. -/
theorem readsOutsideTablesAreRefused : Obligations.ReadsOutsideTablesAreRefused := by
  intro s
  constructor
  · intro gear
    exact ⟨displayAssert_gear_zero gear .dmu, displayAssert_gear_zero gear .dmd,
      displayMask_gear_zero gear .clu, displayMask_gear_zero gear .cld⟩
  · exact execSseg_beyond_total

end Sys2Proof.Machine

/-! # Proofs: decoding and encoding

Every phase code is the code of a phase or reserved, and every strip word is the word of a strip command or reserved
(30_encoding.md R115); an event word has the operations whose rows of the opcode table it matches (R101, R103). The
obligations are settled at the end. -/

namespace Sys2Proof

open Machine

/-! ## Format PH -/

@[simp] theorem decode_code (p : Phase) : decode (.ph p.code) = .ok [p.microOp] := by
  cases p <;> rfl

@[simp] theorem encode_microOp (p : Phase) : encode p.microOp = .ph p.code := by
  cases p <;> rfl

theorem exists_code_or_reserved (c : PhaseCode) : (∃ p : Phase, c = p.code) ∨ c = 14 ∨ c = 15 := by
  have named : ∀ c : PhaseCode, (∃ p ∈ Phase.all, c = p.code) ∨ c = 14 ∨ c = 15 := by decide
  exact (named c).imp_left fun ⟨p, _, code⟩ => ⟨p, code⟩

theorem decode_ph_reserved {c : PhaseCode} (reserved : c = 14 ∨ c = 15) :
    decode (.ph c) = .error .reservedPhaseCode := by
  obtain rfl | rfl := reserved <;> rfl

theorem code_not_reserved (p : Phase) : ¬(p.code = 14 ∨ p.code = 15) :=
  fun reserved => by simpa using (decode_code p).symm.trans (decode_ph_reserved reserved)

/-! ## Format SC -/

@[simp] theorem decode_word (cmd : StripCommand) : decode (.sc cmd.word) = .ok [cmd.instr] := by
  simp [decode, decodeStrip, Except.map]

@[simp] theorem encode_instr (cmd : StripCommand) : encode cmd.instr = .sc cmd.word := by
  cases cmd <;> rfl

/-- A word with `op = 1` is the `SEG` of its own four fields (30_encoding.md R110, R112). -/
theorem stripWord_of_op {w : StripWord} (op : w.getLsbD 32 = true) :
    w = stripWord 1 (w.extractLsb' 24 8) (w.extractLsb' 16 8) (w.extractLsb' 8 8) (w.extractLsb' 0 8) := by
  have bound := w.isLt
  have top : w.toNat / 2 ^ 32 % 2 = 1 := by
    simpa [BitVec.getLsbD, Nat.testBit_eq_decide_div_mod_eq] using op
  apply BitVec.eq_of_toNat_eq
  rw [stripWord_toNat]
  simp only [BitVec.extractLsb'_toNat, Nat.shiftRight_eq_div_pow, show (1 : BitVec 1).toNat = 1 from rfl]
  omega

theorem exists_word_or_reserved (w : StripWord) :
    (∃ cmd : StripCommand, w = cmd.word) ∨ (w.getLsbD 32 = false ∧ w ≠ 0) := by
  cases op : w.getLsbD 32 with
  | true => exact .inl ⟨.seg _ _ _ _, stripWord_of_op op⟩
  | false =>
    by_cases zero : w = 0
    · exact .inl ⟨.clr, zero⟩
    · exact .inr ⟨rfl, zero⟩

theorem decode_sc_reserved {w : StripWord} (reserved : w.getLsbD 32 = false ∧ w ≠ 0) :
    decode (.sc w) = .error .reservedStripWord := by
  obtain ⟨op, nonzero⟩ := reserved
  rw [decode, decodeStrip, parseStrip, op, if_neg Bool.false_ne_true, if_neg nonzero]
  rfl

theorem word_not_reserved (cmd : StripCommand) : ¬(cmd.word.getLsbD 32 = false ∧ cmd.word ≠ 0) :=
  fun reserved => by simpa using (decode_word cmd).symm.trans (decode_sc_reserved reserved)

/-! ## Format EV -/

@[simp] theorem decode_ev (w : EventWord) : decode (.ev w) = .ok (decodeEvent w) := rfl

/-- The word with one event, or none, decodes to the one operation it encodes (30_encoding.md R102 to R104). -/
theorem decode_encode_event {i : Instr} (hi : i ∈ eventOps) : decode (encode i) = .ok [i] := by
  revert i; decide

/-- The operations of a word stand in the table's order (30_encoding.md R101). -/
theorem eventOps_filter_mem_decodeEvent (w : EventWord) : eventOps.filter (· ∈ decodeEvent w) = decodeEvent w := by
  revert w; decide

/-- The row of an event operation matches exactly the words that decode to it (30_encoding.md R102 to R105). -/
def RowDecidesOperation (i : Instr) (row : OpcodeRow) : Prop :=
  i.mnemonic = row.mnemonic ∧ ∀ w : EventWord, row.accepts (.ev w) = decide (i ∈ decodeEvent w)

/-- The first eight rows are those of the event operations, in the same order. -/
theorem eventRows_decide_eventOps : List.Forall₂ RowDecidesOperation eventOps (opcodeRows.take 8) := by
  unfold RowDecidesOperation
  decide

/-- The other rows are of other formats. -/
theorem otherRows_refuse_event (w : EventWord) : (opcodeRows.drop 8).filter (·.accepts (.ev w)) = [] := by
  have otherFormat : ∀ row ∈ opcodeRows.drop 8, row.format ≠ .ev := by decide
  rw [List.filter_eq_nil_iff]
  intro row hrow accepted
  obtain ⟨format, -⟩ := Bool.and_eq_true_iff.1 accepted
  exact otherFormat row hrow (of_decide_eq_true format)

/-- Rows that decide a list of operations select the mnemonics of the operations a word decodes to. -/
theorem map_mnemonic_filter_accepts {is : List Instr} {rows : List OpcodeRow}
    (h : List.Forall₂ RowDecidesOperation is rows) (w : EventWord) :
    (rows.filter (·.accepts (.ev w))).map OpcodeRow.mnemonic =
      (is.filter (· ∈ decodeEvent w)).map Instr.mnemonic := by
  induction h with
  | nil => rfl
  | cons head _ ih =>
    obtain ⟨name, accepts⟩ := head
    simp only [List.filter_cons, accepts]
    split <;> simp [name, ih]

theorem decodeEvent_mnemonics (w : EventWord) :
    (decodeEvent w).map Instr.mnemonic = (opcodeRows.filter (·.accepts (.ev w))).map OpcodeRow.mnemonic := by
  rw [← List.take_append_drop 8 opcodeRows, List.filter_append, otherRows_refuse_event, List.append_nil,
    map_mnemonic_filter_accepts eventRows_decide_eventOps, eventOps_filter_mem_decodeEvent]

/-- The four input-edge operations (30_encoding.md R103). -/
def edgeOps : List Instr := [.svpu, .svpd, .svcu, .svcd]

/-- The edge operations of a word are those of its edge field: the timer and tachometer bits give none. -/
theorem decodeEvent_filter_edgeOps (w : EventWord) : (decodeEvent w).filter (· ∈ edgeOps) = decodeEdge w := by
  have edges : (decodeEdge w).filter (· ∈ edgeOps) = decodeEdge w := by
    unfold decodeEdge
    split_ifs <;> rfl
  have noEdge {b : Bool} {i : Instr} (hi : i ∉ edgeOps) :
      (if b = true then [i] else []).filter (· ∈ edgeOps) = [] := by
    cases b <;> simp [hi]
  unfold decodeEvent
  split
  next zero => subst zero; rfl
  next =>
    rw [List.filter_append, List.filter_append, List.filter_append, noEdge (by decide), noEdge (by decide),
      noEdge (by decide), edges]
    rfl

/-- The table of 30_encoding.md R105: the edge operation by the edge field, the low four bits of the word. -/
def edgeTable : List (List Instr) :=
  [[], [.svcd], [.svcu], [.svcu], [.svpd], [.svpd], [.svpd], [.svpd],
    [.svpu], [.svpu], [.svpu], [.svpu], [.svpu], [.svpu], [.svpu], [.svpu]]

theorem decodeEdge_eq_edgeTable (w : EventWord) : decodeEdge w = edgeTable[w.toNat % 16]! := by
  revert w; decide

/-! ## All formats -/

/-- Every instruction is an event operation, the micro-operation of a phase, a strip command or `RESET`. -/
theorem instr_by_format (i : Instr) :
    i ∈ eventOps ∨ (∃ p : Phase, p.microOp = i) ∨ (∃ cmd : StripCommand, cmd.instr = i) ∨ i = .reset := by
  have micro (h : i ∈ Phase.all.map Phase.microOp) : ∃ p : Phase, p.microOp = i := by
    obtain ⟨p, -, rfl⟩ := List.mem_map.1 h
    exact ⟨p, rfl⟩
  cases i with
  | tickc | tickf | tach | svpu | svpd | svcu | svcd | nope => exact .inl (by decide)
  | chks | est | map | sclr | sseg | chkc | shup | dasu | dmku | clru | shdn | dasd | dmkd | clrd =>
    exact .inr (.inl (micro (by decide)))
  | clr => exact .inr (.inr (.inl ⟨.clr, rfl⟩))
  | seg l r g b => exact .inr (.inr (.inl ⟨.seg l r g b, rfl⟩))
  | reset => exact .inr (.inr (.inr rfl))

/-- `RESET` is the one level of the pin that is a request; the low level is none (30_encoding.md R119). -/
theorem pin_high_or_low (level : ResetPin) : level = 1 ∨ level = 0 := by
  revert level; decide

/-- A word of any format decodes exactly if it is well formed (30_encoding.md R115, R119). -/
theorem decode_completes_iff (c : CodeWord) : (∃ is, decode c = .ok is) ↔ c.wellFormed = true := by
  cases c with
  | ev w => exact iff_of_true ⟨_, decode_ev w⟩ rfl
  | ph c =>
    obtain ⟨p, rfl⟩ | reserved := exists_code_or_reserved c
    · exact iff_of_true ⟨_, decode_code p⟩ (decide_eq_true (Nat.lt_succ_of_le (code_le p)))
    · refine iff_of_false (by simp [decode_ph_reserved reserved]) ?_
      obtain rfl | rfl := reserved <;> decide
  | sc w =>
    obtain ⟨cmd, rfl⟩ | reserved := exists_word_or_reserved w
    · have notReserved := word_not_reserved cmd
      exact iff_of_true ⟨_, decode_word cmd⟩ (by simpa [CodeWord.wellFormed, or_iff_not_imp_left] using notReserved)
    · refine iff_of_false (by simp [decode_sc_reserved reserved]) ?_
      obtain ⟨op, nonzero⟩ := reserved
      simpa [CodeWord.wellFormed, ← BitVec.getLsbD_eq_getElem, op] using nonzero
  | pin level =>
    obtain rfl | rfl := pin_high_or_low level
    · exact iff_of_true ⟨_, rfl⟩ rfl
    · exact iff_of_false (fun ⟨_, h⟩ => nomatch h) (by decide)

/-! ## The obligations -/

/-- Settles O41: a case per format of the instruction. -/
theorem decodeEncodeAgree : Obligations.DecodeEncodeAgree := by
  intro i _
  obtain event | ⟨p, rfl⟩ | ⟨cmd, rfl⟩ | rfl := instr_by_format i
  · exact decode_encode_event event
  · rw [encode_microOp, decode_code]
  · rw [encode_instr, decode_word]
  · rfl

/-- Settles O40: a reserved word is refused by its name, and every other word of its format decodes. -/
theorem reservedWordsAreRefused : Obligations.ReservedWordsAreRefused := by
  refine ⟨decode_ev, fun c => ⟨fun refused => ?_, decode_ph_reserved⟩, fun w => ⟨fun refused => ?_, decode_sc_reserved⟩,
    decode_completes_iff⟩
  · obtain ⟨p, rfl⟩ | reserved := exists_code_or_reserved c
    · simp at refused
    · exact reserved
  · obtain ⟨cmd, rfl⟩ | reserved := exists_word_or_reserved w
    · simp at refused
    · exact reserved

/-- Settles O42: a word that decodes is not reserved, so it is the code of a phase, the word of a strip command or the
high pin, and its one instruction is encoded by just that. -/
theorem encodeDecodeAgree : Obligations.EncodeDecodeAgree := by
  intro c i format decodes
  cases c with
  | ev w => exact absurd rfl format
  | ph c =>
    obtain ⟨p, rfl⟩ | reserved := exists_code_or_reserved c
    · obtain rfl : p.microOp = i := by simpa using decodes
      exact encode_microOp p
    · simp [decode_ph_reserved reserved] at decodes
  | sc w =>
    obtain ⟨cmd, rfl⟩ | reserved := exists_word_or_reserved w
    · obtain rfl : cmd.instr = i := by simpa using decodes
      exact encode_instr cmd
    · simp [decode_sc_reserved reserved] at decodes
  | pin level =>
    obtain rfl | rfl := pin_high_or_low level
    · cases decodes; rfl
    · cases decodes

/-- Settles O38: the rows of the event operations decide which operations a word has, and its edge field alone gives the
edge operation. -/
theorem eventWordDecodesToItsRows : Obligations.EventWordDecodesToItsRows :=
  fun w => ⟨fun _ => rfl, decodeEvent_mnemonics w,
    (decodeEvent_filter_edgeOps w).trans (decodeEdge_eq_edgeTable w)⟩

/-- Settles O39: the words of the micro-operations and strip commands are those of the encoding. -/
theorem sampleWordsDecode : Obligations.SampleWordsDecode :=
  ⟨rfl, rfl, decode_code .map, decode_code .dmd, decode_word (.seg 0x10 0x00 0xFF 0x00), decode_word .clr, rfl⟩

end Sys2Proof

/-! # Proofs: the capture unit and its hand-off

The layers, in order: the arithmetic of the estimator; which operations write the capture unit and what an event word
makes of it; what an event step and a sequencer step may write; induction along a list of turns, and what it is used
for: the ticks between two edges, the passes that are due, a block with no pulse; the order of an iteration. The
obligations are settled at the end. -/

namespace Sys2Proof.Machine

/-! ## The estimate of a sample -/

section Estimate

variable {c : Config} {sample : Nat}

/-- Sample 0 is the sentinel (40_capture_estimator.md R141). -/
@[simp] theorem speedOf_zero (c : Config) : speedOf c 0 = 0 := if_pos rfl

/-- One constant divided by the sample, as 40_capture_estimator.md R142 reads the two divisions of R141. -/
theorem speedOf_of_pos (pos : 1 ≤ sample) : speedOf c sample = c.rateConst / sample := by
  rw [speedOf, if_neg (Nat.ne_of_gt pos), Config.rateConst, Nat.div_div_eq_div_mul, Nat.mul_comm]

theorem speedOf_le_rateConst (c : Config) (sample : Nat) : speedOf c sample ≤ c.rateConst := by
  obtain rfl | pos := Nat.eq_zero_or_pos sample
  · simp
  · rw [speedOf_of_pos pos]
    exact Nat.div_le_self ..

/-- A longer interval is no higher speed. -/
theorem speedOf_antitone {longer : Nat} (pos : 1 ≤ sample) (le : sample ≤ longer) :
    speedOf c longer ≤ speedOf c sample := by
  rw [speedOf_of_pos pos, speedOf_of_pos (pos.trans le)]
  exact Nat.div_le_div_left le pos

theorem execEst_speedValue {s t : State} (h : exec .est s = .next t) :
    t.speedValue = speedOf s.cfg.toConfig s.sampleLatch := by
  cases h; rfl

end Estimate

/-! ## The capture unit -/

/-- The registers of the frequency counter (40_capture_estimator.md section 1, 10_state.md R21 to R25). -/
structure CaptureUnit where
  counter : Nat
  sample : Nat
  ready : Bool
  latch : Nat
  speed : Nat

/-- The frequency counter's registers of a state. -/
def State.captureUnit (s : State) : CaptureUnit :=
  ⟨s.intervalCounter, s.captureSample, s.speedReady, s.sampleLatch, s.speedValue⟩

/-- The operations that write a register of the capture unit. -/
def writesCaptureUnit : Instr → Bool
  | .tickc => true
  | .tach => true
  | .chks => true
  | .est => true
  | .reset => true
  | _ => false

section Registers

variable {s t : State}

theorem exec_keeps_captureUnit {i : Instr} (hi : writesCaptureUnit i = false) (h : exec i s = .next t) :
    t.captureUnit = s.captureUnit := by
  cases i with
  | tickc | tach | chks | est | reset => cases hi
  | svpu | svpd | svcu | svcd | nope | map | clru | clrd | clr | seg => cases h; rfl
  | tickf => obtain ⟨-, rfl⟩ | ⟨-, rfl⟩ := execTickf_next h <;> rfl
  | sclr => cases (execSclr_eq s).symm.trans h; rfl
  | sseg => obtain ⟨-, x, -, rfl⟩ | ⟨-, rfl⟩ := execSseg_next h <;> rfl
  | chkc => obtain ⟨-, rfl⟩ | ⟨-, rfl⟩ := execChkc_next h <;> rfl
  | shup => obtain ⟨-, rfl⟩ | ⟨-, rfl⟩ := execShup_next h <;> rfl
  | shdn => obtain ⟨-, rfl⟩ | ⟨-, rfl⟩ := execShdn_next h <;> rfl
  | dasu | dasd => obtain ⟨a, -, rfl⟩ := displayAssert_eq_next h; rfl
  | dmku | dmkd => obtain ⟨d, -, rfl⟩ := displayMask_eq_next h; rfl

/-- With no sample pending, `CHKS` goes straight to `CHKC` (40_capture_estimator.md R136). -/
theorem exec_chks_notReady (ready : s.speedReady = false) : exec .chks s = .next (s.goto .chkc) := by
  simp [exec, execChks, ready]

/-- A pending sample is taken and its flag cleared in one step. -/
theorem exec_chks_ready (ready : s.speedReady = true) :
    exec .chks s = .next { s with sampleLatch := s.captureSample, speedReady := false, phase := .est } := by
  simp [exec, execChks, ready]

/-- Of the micro-operations only `CHKS` writes "speed data ready" (40_capture_estimator.md R136). -/
theorem exec_microOp_keeps_speedReady {p : Phase} (away : p ≠ .chks) (h : exec p.microOp s = .next t) :
    t.speedReady = s.speedReady := by
  cases p with
  | chks => exact absurd rfl away
  | est => cases h; rfl
  | _ => exact congrArg CaptureUnit.ready (exec_keeps_captureUnit rfl h)

/-- Of the micro-operations only `EST` writes the speed (40_capture_estimator.md R141). -/
theorem exec_microOp_keeps_speedValue {p : Phase} (away : p ≠ .est) (h : exec p.microOp s = .next t) :
    t.speedValue = s.speedValue := by
  cases p with
  | est => exact absurd rfl away
  | chks => obtain ⟨-, rfl⟩ | ⟨-, rfl⟩ := execChks_next h <;> rfl
  | _ => exact congrArg CaptureUnit.speed (exec_keeps_captureUnit rfl h)

end Registers

/-! ## An event word -/

/-- The interval counter once the word's own `TICKC`, if it has one, is counted (44_step_and_loop.md R222). -/
def State.countAfter (s : State) (w : EventWord) : Nat :=
  if carries w .tkc then wrapTo s.cfg.cntW (s.intervalCounter + 1) else s.intervalCounter

/-- The capture unit after an event word: the word's `TACH` captures a counter that has its `TICKC` in it
(44_step_and_loop.md R222). -/
def State.captureUnitAfter (s : State) (w : EventWord) : CaptureUnit :=
  if carries w .tach then
    { s.captureUnit with counter := 0, sample := s.countAfter w, ready := true }
  else { s.captureUnit with counter := s.countAfter w }

section EventWord

variable {s t : State} {w : EventWord}

theorem runOps_append (is js : List Instr) (s : State) :
    runOps (is ++ js) s = andThen (runOps is s) (runOps js) := by
  induction is generalizing s with
  | nil => rfl
  | cons i is ih => simp only [List.cons_append, runOps, andThen_assoc, funext ih]

/-- One operation that a word may request runs or is left out. -/
theorem runOps_requested {asked : Bool} {i : Instr} (h : runOps (if asked then [i] else []) s = .next t) :
    (asked = true ∧ exec i s = .next t) ∨ (asked = false ∧ t = s) := by
  cases asked with
  | true =>
    obtain ⟨u, hu, rest⟩ := andThen_eq_next h
    cases rest
    exact .inl ⟨rfl, hu⟩
  | false => exact .inr ⟨rfl, by cases h; rfl⟩

/-- A word is its timer ticks, its tachometer edge and its input edge, in that order; the empty word, which is `NOPE`,
makes no difference (44_step_and_loop.md R222, R224). -/
theorem act_event_eq (w : EventWord) (s : State) :
    act (.event w) s =
      andThen (runOps (if carries w .tkc then [.tickc] else []) s) fun a =>
        andThen (runOps (if carries w .tkf then [.tickf] else []) a) fun b =>
          andThen (runOps (if carries w .tach then [.tach] else []) b) (runOps (decodeEdge w)) := by
  by_cases empty : w = 0
  · subst empty; rfl
  · simp only [act, decodeEvent, if_neg empty, runOps_append, andThen_assoc]

theorem runOps_edge_keeps_captureUnit (h : runOps (decodeEdge w) s = .next t) : t.captureUnit = s.captureUnit := by
  refine runOps_keeps (P := fun u => u.captureUnit = s.captureUnit)
    (fun i hi _ _ kept h => (exec_keeps_captureUnit ?_ h).trans kept) rfl h
  unfold decodeEdge at hi
  split_ifs at hi <;> simp_all [writesCaptureUnit]

/-- The word's operations one after the other; the flash tick and the input edge have no part in it. -/
theorem act_event_captureUnit (h : act (.event w) s = .next t) : t.captureUnit = s.captureUnitAfter w := by
  rw [act_event_eq] at h
  obtain ⟨a, ticked, h⟩ := andThen_eq_next h
  obtain ⟨b, flashed, h⟩ := andThen_eq_next h
  obtain ⟨c, captured, edged⟩ := andThen_eq_next h
  have afterTick : a.captureUnit = { s.captureUnit with counter := s.countAfter w } := by
    unfold State.countAfter
    obtain ⟨asked, ticked⟩ | ⟨asked, rfl⟩ := runOps_requested ticked
    · cases ticked; rw [if_pos asked]; rfl
    · rw [asked]; rfl
  have afterFlash : b.captureUnit = a.captureUnit := by
    obtain ⟨-, flashed⟩ | ⟨-, rfl⟩ := runOps_requested flashed
    · exact exec_keeps_captureUnit rfl flashed
    · rfl
  rw [runOps_edge_keeps_captureUnit edged, State.captureUnitAfter]
  obtain ⟨asked, captured⟩ | ⟨asked, rfl⟩ := runOps_requested captured
  · have afterTach : c.captureUnit =
        { b.captureUnit with counter := 0, sample := b.captureUnit.counter, ready := true } := by
      cases captured; rfl
    rw [if_pos asked, afterTach, afterFlash, afterTick]
  · rw [asked, afterFlash, afterTick]; rfl

/-- A tachometer edge zeroes the counter; any other word leaves it at its own count (40_capture_estimator.md R132). -/
theorem act_event_intervalCounter (h : act (.event w) s = .next t) :
    t.intervalCounter = if carries w .tach then 0 else s.countAfter w := by
  have counter := congrArg CaptureUnit.counter (act_event_captureUnit h)
  rwa [State.captureUnitAfter, apply_ite CaptureUnit.counter] at counter

theorem act_event_captureSample (h : act (.event w) s = .next t) :
    t.captureSample = if carries w .tach then s.countAfter w else s.captureSample := by
  have sample := congrArg CaptureUnit.sample (act_event_captureUnit h)
  rwa [State.captureUnitAfter, apply_ite CaptureUnit.sample] at sample

theorem act_event_speedReady (h : act (.event w) s = .next t) :
    t.speedReady = if carries w .tach then true else s.speedReady := by
  have ready := congrArg CaptureUnit.ready (act_event_captureUnit h)
  rwa [State.captureUnitAfter, apply_ite CaptureUnit.ready] at ready

theorem act_reset_intervalCounter (h : act .reset s = .next t) : t.intervalCounter = 0 := by
  cases h; rfl

end EventWord

/-! ## The frames of the two contexts -/

/-- Every hand-off flag that is set in `s` is set in `t` (10_state.md R45). -/
structure HandOffLe (s t : State) : Prop where
  speedReady : s.speedReady = true → t.speedReady = true
  confirmUp : s.confirmUp = true → t.confirmUp = true
  confirmDn : s.confirmDn = true → t.confirmDn = true

/-- `t` differs from `s` at most in the elements the sequencer writes (10_state.md R45). -/
def SequencerFrame (s t : State) : Prop :=
  t = { s with
    sampleLatch := t.sampleLatch, speedValue := t.speedValue, litCount := t.litCount, redline := t.redline
    phaseLatch := t.phaseLatch, segEnd := t.segEnd, segIdx := t.segIdx, speedReady := t.speedReady
    confirmUp := t.confirmUp, confirmDn := t.confirmDn, gearIndex := t.gearIndex, dispOut := t.dispOut
    phase := t.phase, stripOut := t.stripOut, strip := t.strip }

section Frames

variable {s t u : State}

theorem HandOffLe.refl (s : State) : HandOffLe s s := ⟨id, id, id⟩

theorem HandOffLe.trans (before : HandOffLe s t) (after : HandOffLe t u) : HandOffLe s u :=
  ⟨after.speedReady ∘ before.speedReady, after.confirmUp ∘ before.confirmUp, after.confirmDn ∘ before.confirmDn⟩

/-- An event operation clears no hand-off flag. -/
theorem exec_event_handOff {i : Instr} (hi : i ∈ eventOps) (h : exec i s = .next t) : HandOffLe s t := by
  cases i with
  | tickc | svpu | svpd | nope => cases h; exact ⟨id, id, id⟩
  | tach => cases h; exact ⟨fun _ => rfl, id, id⟩
  | svcu => cases h; exact ⟨id, fun _ => rfl, id⟩
  | svcd => cases h; exact ⟨id, id, fun _ => rfl⟩
  | tickf => obtain ⟨-, rfl⟩ | ⟨-, rfl⟩ := execTickf_next h <;> exact ⟨id, id, id⟩
  | _ => simp [eventOps] at hi

theorem act_event_handOff {w : EventWord} (h : act (.event w) s = .next t) : HandOffLe s t :=
  runOps_keeps (P := HandOffLe s)
    (fun _ hi _ _ le hexec => le.trans (exec_event_handOff (mem_eventOps_of_mem_decodeEvent hi) hexec))
    (HandOffLe.refl s) h

/-- No event operation reads a table or emits a word, so none can be refused (60_exceptions.md R250). -/
theorem exec_event_completes {i : Instr} (hi : i ∈ eventOps) (s : State) : ∃ t, exec i s = .next t := by
  cases i with
  | tickc | tach | svpu | svpd | svcu | svcd | nope => exact ⟨_, rfl⟩
  | tickf => simp only [exec, execTickf]; split <;> exact ⟨_, rfl⟩
  | _ => simp [eventOps] at hi

theorem runOps_event_completes {is : List Instr} (events : ∀ i ∈ is, i ∈ eventOps) (s : State) :
    ∃ t, runOps is s = .next t := by
  induction is generalizing s with
  | nil => exact ⟨s, rfl⟩
  | cons i is ih =>
    obtain ⟨u, hu⟩ := exec_event_completes (events i (.head _)) s
    obtain ⟨t, ht⟩ := ih (fun j hj => events j (.tail _ hj)) u
    exact ⟨t, by rw [runOps, hu, andThen_next, ht]⟩

theorem act_event_completes (w : EventWord) (s : State) : ∃ t, act (.event w) s = .next t :=
  runOps_event_completes (fun _ => mem_eventOps_of_mem_decodeEvent) s

theorem EventFrame.picture (h : EventFrame s t) : t.picture = s.picture := by rw [h]; rfl
theorem EventFrame.speedValue (h : EventFrame s t) : t.speedValue = s.speedValue := by rw [h]
theorem EventFrame.stripOut (h : EventFrame s t) : t.stripOut = s.stripOut := by rw [h]

theorem exec_microOp_frame {p : Phase} (h : exec p.microOp s = .next t) : SequencerFrame s t := by
  cases p with
  | est | map | clu | cld => cases h; rfl
  | chks => obtain ⟨-, rfl⟩ | ⟨-, rfl⟩ := execChks_next h <;> rfl
  | clr => cases (execSclr_eq s).symm.trans h; rfl
  | seg => obtain ⟨-, x, -, rfl⟩ | ⟨-, rfl⟩ := execSseg_next h <;> rfl
  | chkc => obtain ⟨-, rfl⟩ | ⟨-, rfl⟩ := execChkc_next h <;> rfl
  | shup => obtain ⟨-, rfl⟩ | ⟨-, rfl⟩ := execShup_next h <;> rfl
  | shdn => obtain ⟨-, rfl⟩ | ⟨-, rfl⟩ := execShdn_next h <;> rfl
  | dau | dad => obtain ⟨a, -, rfl⟩ := displayAssert_eq_next h; rfl
  | dmu | dmd => obtain ⟨d, -, rfl⟩ := displayMask_eq_next h; rfl

theorem SequencerFrame.intervalCounter (h : SequencerFrame s t) : t.intervalCounter = s.intervalCounter := by rw [h]
theorem SequencerFrame.captureSample (h : SequencerFrame s t) : t.captureSample = s.captureSample := by rw [h]

/-- A guard that fails at a gear bound sets no confirm flag (42_shift_arbiter.md R180, R188). -/
theorem confirm_of_confirmAtBound {c : Config} {confirm : Bool} (h : confirmAtBound c confirm = true) :
    confirm = true := by
  cases confirm with
  | true => rfl
  | false => exact h

/-- A micro-operation sets no hand-off flag. -/
theorem exec_microOp_handOff {p : Phase} (h : exec p.microOp s = .next t) : HandOffLe t s := by
  cases p with
  | est | map => cases h; exact ⟨id, id, id⟩
  | clu => cases h; exact ⟨id, nofun, id⟩
  | cld => cases h; exact ⟨id, id, nofun⟩
  | chks =>
    obtain ⟨-, rfl⟩ | ⟨-, rfl⟩ := execChks_next h
    · exact ⟨nofun, id, id⟩
    · exact ⟨id, id, id⟩
  | clr => cases (execSclr_eq s).symm.trans h; exact ⟨id, id, id⟩
  | seg => obtain ⟨-, x, -, rfl⟩ | ⟨-, rfl⟩ := execSseg_next h <;> exact ⟨id, id, id⟩
  | chkc => obtain ⟨-, rfl⟩ | ⟨-, rfl⟩ := execChkc_next h <;> exact ⟨id, id, id⟩
  | shup =>
    obtain ⟨-, rfl⟩ | ⟨-, rfl⟩ := execShup_next h
    · exact ⟨id, id, id⟩
    · exact ⟨id, confirm_of_confirmAtBound, id⟩
  | shdn =>
    obtain ⟨-, rfl⟩ | ⟨-, rfl⟩ := execShdn_next h
    · exact ⟨id, id, id⟩
    · exact ⟨id, id, confirm_of_confirmAtBound⟩
  | dau | dad => obtain ⟨a, -, rfl⟩ := displayAssert_eq_next h; exact ⟨id, id, id⟩
  | dmu | dmd => obtain ⟨d, -, rfl⟩ := displayMask_eq_next h; exact ⟨id, id, id⟩

end Frames

/-! ## Along a list of turns -/

theorem runTurns_completes (ts : List Turn) {s : State} (h : s.Inv) : ∃ t, runTurns ts s = .next t := by
  induction ts generalizing s with
  | nil => exact ⟨s, rfl⟩
  | cons turn ts ih =>
    obtain ⟨u, hu⟩ := act_completes turn h
    obtain ⟨t, ht⟩ := ih (act_keeps_inv h hu)
    exact ⟨t, by rw [runTurns, hu, andThen_next, ht]⟩

theorem requestCount_cons (b : EventBit) (turn : Turn) (ts : List Turn) :
    requestCount b (turn :: ts) = (if requests b turn then 1 else 0) + requestCount b ts := by
  rw [requestCount, List.countP_cons, Nat.add_comm]; rfl

/-- The one induction over turns: what holds of a number and a state, and after each turn of the number with the turn's
request counted in, holds at the end of the number with all requests counted in. -/
theorem runTurns_counts {P : Nat → State → Prop} (b : EventBit) {ts : List Turn}
    (counts : ∀ turn ∈ ts, ∀ n s t, P n s → act turn s = .next t → P (n + if requests b turn then 1 else 0) t)
    {n : Nat} {s t : State} (hs : P n s) (h : runTurns ts s = .next t) : P (n + requestCount b ts) t := by
  induction ts generalizing n s with
  | nil => cases h; exact hs
  | cons turn ts ih =>
    obtain ⟨u, hu, h⟩ := andThen_eq_next h
    rw [requestCount_cons, ← Nat.add_assoc]
    exact ih (fun turn ht => counts turn (.tail _ ht)) (counts turn (.head _) n s u hs hu) h

/-- What every turn of the list keeps, the list keeps: the same with no number. -/
theorem runTurns_keeps {P : State → Prop} {ts : List Turn}
    (keeps : ∀ turn ∈ ts, ∀ s t, P s → act turn s = .next t → P t) {s t : State} (hs : P s)
    (h : runTurns ts s = .next t) : P t :=
  runTurns_counts (P := fun _ => P) (n := 0) .tkc (fun turn mem _ => keeps turn mem) hs h

/-! ## The counter between two edges -/

/-- The counter holds `n` ticks, wrapped at its width, in configuration `c` (40_capture_estimator.md R130). -/
structure CountsTicks (c : LegalConfig) (n : Nat) (s : State) : Prop where
  cfg : s.cfg = c
  counter : s.intervalCounter = n % 2 ^ c.cntW

section Counter

variable {c : LegalConfig} {s t : State} {w : EventWord} {n : Nat}

/-- The word's own tick is counted on top. -/
theorem CountsTicks.countAfter (h : CountsTicks c n s) (w : EventWord) :
    s.countAfter w = (n + if carries w .tkc then 1 else 0) % 2 ^ c.cntW := by
  rw [State.countAfter, h.cfg, h.counter]
  split
  · exact Nat.mod_add_mod ..
  · rfl

/-- The start of the count: `RESET` and a tachometer edge leave the counter at 0. -/
theorem countsTicks_zero {first : Turn} (start : first = .reset ∨ ∃ w, first = .event w ∧ carries w .tach = true)
    (h : act first s = .next t) : CountsTicks s.cfg 0 t where
  cfg := act_keeps_cfg h
  counter := by
    rw [Nat.zero_mod]
    obtain rfl | ⟨w, rfl, edge⟩ := start
    · exact act_reset_intervalCounter h
    · rw [act_event_intervalCounter h, if_pos edge]

/-- Between two edges a turn counts its own tick and nothing else. -/
theorem CountsTicks.turn {turn : Turn} (hs : CountsTicks c n s) (noReset : turn ≠ .reset)
    (noEdge : requests .tach turn = false) (h : act turn s = .next t) :
    CountsTicks c (n + if requests .tkc turn then 1 else 0) t where
  cfg := (act_keeps_cfg h).trans hs.cfg
  counter := by
    cases turn with
    | reset => exact absurd rfl noReset
    | seq => exact (exec_microOp_frame h).intervalCounter.trans hs.counter
    | event w =>
      have noEdge : carries w .tach = false := noEdge
      rw [act_event_intervalCounter h, noEdge]
      exact hs.countAfter w

end Counter

/-! ## Passes due -/

/-- The phases between a taken sample and the `CLR` of its pass (10_state.md R41). -/
def beforeClear : Phase → Bool
  | .est => true
  | .map => true
  | .clr => true
  | _ => false

/-- The passes begun and those the block is bound to begin: one for a pending sample, one for a sample taken whose
`CLR` is still to come. -/
def State.passesDue (s : State) : Nat :=
  s.stripOut.count 0#33 + s.speedReady.toNat + (beforeClear s.phase).toNat

section Passes

variable {s t : State}

theorem clr_word_eq_zero : StripCommand.word .clr = 0#33 := by decide

/-- A `SEG` word is no `CLR` word: the strip tells them apart. -/
theorem seg_word_ne_zero (l r g b : Byte) : StripCommand.word (.seg l r g b) ≠ 0#33 := by
  intro same
  have parsed := parseStrip_word (.seg l r g b)
  rw [same, ← clr_word_eq_zero, parseStrip_word] at parsed
  cases parsed

theorem count_append_seg_word (out : List StripWord) (l r g b : Byte) :
    (out ++ [StripCommand.word (.seg l r g b)]).count 0#33 = out.count 0#33 := by
  rw [List.count_append, List.count_cons_of_ne (seg_word_ne_zero l r g b), List.count_nil, Nat.add_zero]

/-- A micro-operation hands the pass on: from `SpeedReady` to the phase, from the phase to `StripOut`. -/
theorem exec_microOp_passesDue {p : Phase} (phase : s.phase = p) (h : exec p.microOp s = .next t) :
    t.passesDue = s.passesDue := by
  cases p with
  | chks =>
    obtain ⟨ready, rfl⟩ | ⟨ready, rfl⟩ := execChks_next h <;>
      simp [State.passesDue, phase, ready, beforeClear]
  | clr =>
    cases (execSclr_eq s).symm.trans h
    simp [State.passesDue, phase, beforeClear, clr_word_eq_zero, Nat.add_right_comm]
  | seg =>
    obtain ⟨-, x, -, rfl⟩ | ⟨-, rfl⟩ := execSseg_next h
    · simp only [State.passesDue, State.setStrip_stripOut, State.logWord_stripOut, count_append_seg_word]; rfl
    · simp [State.passesDue, phase, beforeClear]
  | est | map | clu | cld => cases h; simp [State.passesDue, phase, beforeClear]
  | chkc => obtain ⟨-, rfl⟩ | ⟨-, rfl⟩ := execChkc_next h <;> simp [State.passesDue, phase, beforeClear]
  | shup => obtain ⟨-, rfl⟩ | ⟨-, rfl⟩ := execShup_next h <;> simp [State.passesDue, phase, beforeClear]
  | shdn => obtain ⟨-, rfl⟩ | ⟨-, rfl⟩ := execShdn_next h <;> simp [State.passesDue, phase, beforeClear]
  | dau | dad =>
    obtain ⟨a, -, rfl⟩ := displayAssert_eq_next h
    simp [State.passesDue, phase, beforeClear]
  | dmu | dmd =>
    obtain ⟨d, -, rfl⟩ := displayMask_eq_next h
    simp [State.passesDue, phase, beforeClear]

/-- Only a tachometer edge makes a pass due, and at most one. -/
theorem act_passesDue_le {turn : Turn} (noReset : turn ≠ .reset) (h : act turn s = .next t) :
    t.passesDue ≤ s.passesDue + if requests .tach turn then 1 else 0 := by
  cases turn with
  | reset => exact absurd rfl noReset
  | seq => exact (exec_microOp_passesDue rfl h).le
  | event w =>
    have frame := act_event_frame h
    simp only [State.passesDue, frame.stripOut, frame.phase, act_event_speedReady h, requests]
    by_cases edge : carries w .tach = true
    · simp only [edge, if_true, Bool.toNat_true]; omega
    · simp only [edge]; exact Nat.le_refl _

end Passes

/-! ## With no pulse -/

/-- The phases of an estimate and its pass (10_state.md R41). -/
def servesSample : Phase → Bool
  | .est => true
  | .map => true
  | .clr => true
  | .seg => true
  | _ => false

/-- No sample pending and none being served, with the speed and the picture `start` had. -/
structure Idle (start s : State) : Prop where
  ready : s.speedReady = false
  phase : servesSample s.phase = false
  speed : s.speedValue = start.speedValue
  picture : s.picture = start.picture

/-- Only `CHKS` leads into the phases that serve a sample. -/
theorem servesSample_of_successor {p q : Phase} (idle : servesSample p = false) (away : p ≠ .chks)
    (succ : q ∈ successorsOf p) : servesSample q = false := by
  cases p with
  | chks => exact absurd rfl away
  | est | map | clr | seg => cases idle
  | chkc | shup | shdn =>
    simp only [successorsOf, List.mem_cons, List.not_mem_nil, or_false] at succ
    obtain rfl | rfl := succ <;> rfl
  | dau | dmu | clu | dad | dmd | cld => obtain rfl := List.mem_singleton.1 succ; rfl

/-- The micro-operations of the other phases leave the picture alone. -/
theorem writesPicture_microOp {p : Phase} (idle : servesSample p = false) : writesPicture p.microOp = false := by
  cases p with
  | est | map | clr | seg => cases idle
  | _ => rfl

section Idle

variable {start s t : State}

theorem Idle.seq (hs : Idle start s) (h : act .seq s = .next t) : Idle start t := by
  have picture := (exec_keeps_picture (writesPicture_microOp hs.phase) h).trans hs.picture
  have notEst : s.phase ≠ .est := fun est => by simpa [est, servesSample] using hs.phase
  have speed := (exec_microOp_keeps_speedValue notEst h).trans hs.speed
  have ready : t.speedReady = false :=
    Bool.eq_false_of_not_eq_true fun set => by simpa [hs.ready] using (exec_microOp_handOff h).speedReady set
  refine ⟨ready, ?_, speed, picture⟩
  by_cases chks : s.phase = .chks
  · simp only [act, chks] at h
    obtain ⟨set, -⟩ | ⟨-, rfl⟩ := execChks_next h
    · exact absurd set (by simp [hs.ready])
    · rfl
  · exact servesSample_of_successor hs.phase chks (act_seq_phase h)

theorem Idle.event {w : EventWord} (hs : Idle start s) (noEdge : carries w .tach = false)
    (h : act (.event w) s = .next t) : Idle start t := by
  have frame := act_event_frame h
  exact {
    ready := by rw [act_event_speedReady h, noEdge]; exact hs.ready
    phase := frame.phase ▸ hs.phase
    speed := frame.speedValue.trans hs.speed
    picture := frame.picture.trans hs.picture }

theorem Idle.turn {turn : Turn} (hs : Idle start s) (noReset : turn ≠ .reset) (noEdge : requests .tach turn = false)
    (h : act turn s = .next t) : Idle start t := by
  cases turn with
  | reset => exact absurd rfl noReset
  | seq => exact hs.seq h
  | event w => exact hs.event noEdge h

end Idle

/-! ## The order of an iteration -/

section Order

variable {s t : State}

theorem opsFrom_succ (n : Nat) (h : act .seq s = .next t) : opsFrom (n + 1) s = s.phase.microOp :: opsFrom n t := by
  rw [opsFrom, h]

theorem act_seq_eq {p : Phase} (phase : s.phase = p) : act .seq s = exec p.microOp s := by rw [act, phase]

theorem opsFrom_one (s : State) : opsFrom 1 s = [s.phase.microOp] := by
  rw [opsFrom]
  split <;> rfl

/-- In a pass with `n` segments to go, `SSEG` runs once for each and once to close the pass
(43_strip_sequencer.md R202). -/
theorem opsFrom_seg (hs : s.Inv) (phase : s.phase = .seg) {n : Nat} (left : s.segEnd = s.segIdx + n) :
    opsFrom (n + 2) s = List.replicate (n + 1) .sseg ++ [.chkc] := by
  induction n generalizing s with
  | zero =>
    obtain ⟨t, ht⟩ := act_completes .seq hs
    rw [opsFrom_succ _ ht, phase]
    rw [act_seq_eq phase] at ht
    obtain ⟨below, -⟩ | ⟨-, rfl⟩ := execSseg_next ht
    · omega
    · rw [opsFrom_one]; rfl
  | succ n ih =>
    obtain ⟨t, ht⟩ := act_completes .seq hs
    have inv := act_keeps_inv hs ht
    rw [opsFrom_succ _ ht, phase]
    rw [act_seq_eq phase] at ht
    obtain ⟨-, x, -, rfl⟩ | ⟨done, -⟩ := execSseg_next ht
    · rw [ih inv phase (by simp only [State.setStrip_segEnd, State.logWord_segEnd]; omega)]; rfl
    · omega

/-- A pending sample is planned in three steps: taken, estimated, mapped. -/
theorem exists_plan (chks : s.phase = .chks) (ready : s.speedReady = true) :
    ∃ a b t, act .seq s = .next a ∧ a.phase = .est ∧ act .seq a = .next b ∧ b.phase = .map ∧
      act .seq b = .next t ∧ t.phase = .clr ∧ t.segIdx = 0 :=
  ⟨_, _, _, (act_seq_eq chks).trans (exec_chks_ready ready), rfl, rfl, rfl, rfl, rfl, rfl⟩

/-- A planned pass is one `SCLR` and the `SSEG` of its segments (43_strip_sequencer.md R204). -/
theorem opsFrom_clr (hs : s.Inv) (phase : s.phase = .clr) (planned : s.segIdx = 0) :
    opsFrom (s.segEnd + 3) s = .sclr :: (List.replicate (s.segEnd + 1) .sseg ++ [.chkc]) := by
  have clear := (act_seq_eq phase).trans (execSclr_eq s)
  rw [opsFrom_succ _ clear, phase, ← opsFrom_seg (act_keeps_inv hs clear) rfl (n := s.segEnd) (by simp [planned])]
  rfl

end Order

/-! ## The obligations -/

/-- Settles O6: the first turn leaves the counter at 0, every turn between the edges counts its own tick, and the last
word captures the count with its own tick in it. -/
theorem captureCountsTicksBetweenEdges : Obligations.CaptureCountsTicksBetweenEdges := by
  intro s ts first w hs start between edge
  obtain ⟨t, ht⟩ := runTurns_completes (first :: (ts ++ [.event w])) hs
  refine ⟨t, ht, ?_⟩
  obtain ⟨u, hu, rest⟩ := andThen_eq_next ht
  rw [runTurns_append] at rest
  obtain ⟨v, hv, last⟩ := andThen_eq_next rest
  obtain ⟨t, hw, last⟩ := andThen_eq_next last
  cases last
  have counted : CountsTicks s.cfg (0 + requestCount .tkc ts) v :=
    runTurns_counts .tkc (fun turn mem _ _ _ counted h => counted.turn (between turn mem).1 (between turn mem).2 h)
      (countsTicks_zero start hu) hv
  rw [act_event_captureSample hw, if_pos edge, counted.countAfter, Nat.zero_add]

/-- Settles O35: at reset no pass is due, a turn makes one more due only by a tachometer edge, and the passes begun are
among those due. -/
theorem noMorePassesThanEdges : Obligations.NoMorePassesThanEdges := by
  intro c ts noReset
  obtain ⟨t, ht⟩ := runTurns_completes ts (resetOf_inv c)
  refine ⟨t, ht, ?_⟩
  have due : t.passesDue ≤ 0 + requestCount .tach ts := by
    refine runTurns_counts (P := fun n u => u.passesDue ≤ n) .tach (fun turn mem n u v le h => ?_)
      (Nat.le_refl (State.resetOf c).passesDue) ht
    have := act_passesDue_le (fun reset => noReset (reset ▸ mem)) h
    omega
  have begun : t.stripOut.count 0#33 ≤ t.passesDue := by unfold State.passesDue; omega
  exact begun.trans (due.trans_eq (Nat.zero_add _))

/-- Settles O5: the laws of the estimate of a sample, which is what `EST` writes. -/
theorem estimatorLaws : Obligations.EstimatorLaws := by
  refine ⟨fun s => ⟨_, rfl, speedOf_le_rateConst .., s.cfg.rateConst_lt⟩, fun s₁ s₂ t₁ t₂ cfg h₁ h₂ => ?_⟩
  rw [execEst_speedValue h₁, execEst_speedValue h₂, ← cfg]
  refine ⟨fun sentinel => ?_, speedOf_of_pos, speedOf_antitone, fun sentinel one positive => ?_⟩
  · rw [sentinel, speedOf_zero]
  · rw [sentinel, one, speedOf_zero, speedOf_of_pos (Nat.le_refl 1), Nat.div_one]
    exact positive

/-- Settles O36: without a sample every turn but `RESET` and an edge leaves the block idle, with the picture it
started from. -/
theorem noPulseNoPicture : Obligations.NoPulseNoPicture := by
  intro s ts hs chks ready quiet
  obtain ⟨t, ht⟩ := runTurns_completes ts hs
  have start : Idle s s := ⟨ready, by rw [chks]; rfl, rfl, rfl⟩
  have idle : Idle s t :=
    runTurns_keeps (fun turn mem _ _ idle h => idle.turn (quiet turn mem).1 (quiet turn mem).2 h) start ht
  obtain ⟨-, lit, -, -, out, strip⟩ := picture_eq_iff.1 idle.picture
  exact ⟨t, ht, idle.speed, out, strip, lit, idle.ready⟩

/-- Settles O52: each event operation completes, writes within the event context and clears no hand-off flag, and so
does a word of them. -/
theorem eventStepFrame : Obligations.EventStepFrame := by
  intro w s
  obtain ⟨t, ht⟩ := act_event_completes w s
  have flags := act_event_handOff ht
  exact ⟨t, ht, act_event_frame ht, flags.speedReady, flags.confirmUp, flags.confirmDn⟩

/-- Settles O53: the frame of the micro-operation that the phase selects, and the flags it does not set. -/
theorem sequencerStepFrame : Obligations.SequencerStepFrame := by
  intro s t h
  have flags := exec_microOp_handOff h
  exact ⟨exec_microOp_frame h, flags.speedReady, flags.confirmUp, flags.confirmDn⟩

/-- Settles O54: of the turns only `RESET` and `CHKS` clear the flag, and only `RESET` and an edge write the sample. -/
theorem pendingSampleReachesChks : Obligations.PendingSampleReachesChks := by
  intro s t u turn ready h
  refine ⟨fun noReset noEdge notChks => ?_, fun seq chks => ?_, fun w edge hw => ?_⟩
  · cases turn with
    | reset => exact absurd rfl noReset
    | seq =>
      exact ⟨(exec_microOp_keeps_speedReady (notChks rfl) h).trans ready, (exec_microOp_frame h).captureSample⟩
    | event w =>
      have noEdge : carries w .tach = false := noEdge
      rw [act_event_speedReady h, act_event_captureSample h, noEdge]
      exact ⟨ready, rfl⟩
  · subst seq
    cases ((act_seq_eq chks).trans (exec_chks_ready ready)).symm.trans h
    exact ⟨rfl, rfl, rfl⟩
  · rw [act_event_speedReady hw, act_event_captureSample hw, if_pos edge, if_pos edge]
    exact ⟨rfl, rfl⟩

/-- Settles O55: `CHKS`, `EST` and `MAP` plan the pass, and the plan fixes how often `SSEG` runs. -/
theorem iterationOrder : Obligations.IterationOrder := by
  intro s hs chks
  constructor
  · intro ready
    rw [opsFrom_succ _ ((act_seq_eq chks).trans (exec_chks_notReady ready)), opsFrom_one, chks]
    rfl
  · intro ready
    obtain ⟨a, b, t, ha, est, hb, map, ht, clr, planned⟩ := exists_plan chks ready
    have inv := act_keeps_inv (act_keeps_inv (act_keeps_inv hs ha) hb) ht
    refine ⟨t, by simp only [runTurns, ha, hb, ht, andThen_next], ?_⟩
    rw [opsFrom_succ _ ha, opsFrom_succ _ hb, opsFrom_succ _ ht, opsFrom_clr inv clr planned, chks, est, map]
    rfl

/-- Settles O1: bit 6 alone asks for `TICKC`, and wrapping to the counter's width is the remainder. -/
theorem tickcCountsModuloWidth : Obligations.TickcCountsModuloWidth :=
  ⟨by decide, fun _ => rfl⟩

/-- Settles O2: bit 4 alone asks for `TACH`. -/
theorem tachCapturesAndZeroesCounter : Obligations.TachCapturesAndZeroesCounter :=
  ⟨by decide, fun _ => rfl⟩

/-- Settles O3: the two branches of `CHKS`. -/
theorem chksLoadsAndClearsReadySample : Obligations.ChksLoadsAndClearsReadySample :=
  ⟨rfl, fun _ => ⟨exec_chks_ready, exec_chks_notReady⟩⟩

/-- Settles O4: the estimate of the latched sample, written out. -/
theorem estDividesRateBySample : Obligations.EstDividesRateBySample :=
  ⟨rfl, fun _ => rfl⟩

end Sys2Proof.Machine

/-! # Proofs: the flash timer and the mapper

The layers, in order: the arithmetic of the flash timer and what the turns make of it; the arithmetic of the lit count
and of the plan, and the state `MAP` leaves; the picture of a pass, where a pass is after a number of sequencer steps,
and its run. The obligations are settled at the end. -/

namespace Sys2Proof.Machine

/-! ## The arithmetic of the flash timer -/

section FlashArithmetic

variable {n period modulus : Nat}

/-- The tick that ends a period is the one whose number is a multiple of the period. -/
theorem next_multiple_of_dvd (h : period ∣ n + 1) : (n / period + 1) * period = n + 1 := by
  rw [← Nat.succ_div_of_dvd h, Nat.div_mul_cancel h]

/-- Wrapping the timer and the compare value makes no match of its own: the two are less than one period apart, and a
period is below the modulus (41_mapper_flash.md R152). -/
theorem flash_match_iff (pos : 1 ≤ period) (fits : period < modulus) :
    (n + 1) % modulus = (n / period + 1) * period % modulus ↔ period ∣ n + 1 := by
  constructor
  · intro same
    have ahead : n + 1 ≤ (n / period + 1) * period := by
      rw [Nat.add_mul, Nat.one_mul, Nat.mul_comm]
      have := Nat.div_add_mod n period
      have := Nat.mod_lt n pos
      omega
    have close : (n / period + 1) * period - (n + 1) < modulus := by
      rw [Nat.add_mul, Nat.one_mul]
      have := Nat.div_mul_le_self n period
      omega
    have apart := Nat.eq_zero_of_dvd_of_lt ((Nat.modEq_iff_dvd' ahead).1 same) close
    exact ⟨n / period + 1, by rw [Nat.mul_comm]; omega⟩
  · intro h
    rw [next_multiple_of_dvd h]

end FlashArithmetic

/-! ## The flash unit along the turns -/

/-- The flash unit as it is after `n` ticks from reset, in configuration `c` (41_mapper_flash.md R152). -/
structure FlashAfter (c : LegalConfig) (n : Nat) (s : State) : Prop where
  cfg : s.cfg = c
  timer : s.flashTimer = n % 2 ^ c.ftW
  phase : s.flashPhase = decide (n / c.flashPeriod % 2 = 1)
  compare : s.flashCompare = (n / c.flashPeriod + 1) * c.flashPeriod % 2 ^ c.ftW

/-- The operations an event word can ask for, but for `TICKF` and `NOPE`. -/
def unflashedOps : List Instr := .tickc :: .tach :: edgeOps

/-- An edge field asks for an edge operation only, which is no flash tick. -/
theorem mem_unflashedOps_of_mem_decodeEdge {w : EventWord} {i : Instr} (h : i ∈ decodeEdge w) : i ∈ unflashedOps := by
  rw [← decodeEvent_filter_edgeOps, List.mem_filter, decide_eq_true_eq] at h
  exact .tail _ (.tail _ h.2)

section Flash

variable {c : LegalConfig} {n : Nat} {s t : State}

theorem flashAfter_reset (c : LegalConfig) : FlashAfter c 0 (State.resetOf c) where
  cfg := rfl
  timer := (Nat.zero_mod _).symm
  phase := by rw [Nat.zero_div]; rfl
  compare := by
    rw [Nat.zero_div, Nat.zero_add, Nat.one_mul, Nat.mod_eq_of_lt c.flashPeriod_range.2]
    rfl

/-- No event operation but `TICKF` writes the flash unit (41_mapper_flash.md R152). -/
theorem FlashAfter.otherOp {i : Instr} (hs : FlashAfter c n s) (hi : i ∈ unflashedOps) (h : exec i s = .next t) :
    FlashAfter c n t := by
  cases i with
  | tickc | tach | svpu | svpd | svcu | svcd => cases h; exact { hs with }
  | _ => simp [unflashedOps, edgeOps] at hi

/-- No micro-operation writes the flash unit: it belongs to the event context (10_state.md R45). -/
theorem FlashAfter.seq (hs : FlashAfter c n s) (h : act .seq s = .next t) : FlashAfter c n t := by
  have frame : SequencerFrame s t := exec_microOp_frame h
  rw [frame]
  exact { hs with }

/-- The timer as `TICKF` writes it is the one after one more tick. -/
theorem FlashAfter.nextTimer (hs : FlashAfter c n s) :
    flashTick s.cfg.toConfig s.flashTimer = (n + 1) % 2 ^ c.ftW := by
  rw [flashTick, wrapTo, hs.cfg, hs.timer, Nat.mod_add_mod]

/-- A tick that ends a period matches, toggles and re-arms; any other tick only advances the timer
(41_mapper_flash.md R150). -/
theorem FlashAfter.tickf (hs : FlashAfter c n s) (h : exec .tickf s = .next t) : FlashAfter c (n + 1) t := by
  obtain ⟨pos, fits⟩ := c.flashPeriod_range
  have timer := hs.nextTimer
  have ends : flashTick s.cfg.toConfig s.flashTimer = s.flashCompare ↔ c.flashPeriod ∣ n + 1 := by
    rw [timer, hs.compare, flash_match_iff pos fits]
  obtain ⟨hit, rfl⟩ | ⟨miss, rfl⟩ := execTickf_next h
  · have next := Nat.succ_div_of_dvd (ends.1 hit)
    refine ⟨hs.cfg, timer, ?_, ?_⟩
    · simp only [next, hs.phase, ← decide_not, decide_eq_decide]
      omega
    · simp only [flashRearm, wrapTo, hs.cfg, hs.compare, Nat.mod_add_mod, next, Nat.succ_mul]
  · have same := Nat.succ_div_of_not_dvd (miss ∘ ends.2)
    exact ⟨hs.cfg, timer, by rw [same]; exact hs.phase, by rw [same]; exact hs.compare⟩

/-- Several of them in order leave it alone too. -/
theorem FlashAfter.otherOps {ops : List Instr} (hs : FlashAfter c n s) (others : ∀ i ∈ ops, i ∈ unflashedOps)
    (h : runOps ops s = .next t) : FlashAfter c n t :=
  runOps_keeps (fun i mem _ _ hu hexec => hu.otherOp (others i mem) hexec) hs h

/-- An event word counts its own flash tick (44_step_and_loop.md R222). -/
theorem FlashAfter.event {w : EventWord} (hs : FlashAfter c n s) (h : act (.event w) s = .next t) :
    FlashAfter c (n + if carries w .tkf then 1 else 0) t := by
  rw [act_event_eq] at h
  obtain ⟨a, ticked, h⟩ := andThen_eq_next h
  obtain ⟨b, flashed, h⟩ := andThen_eq_next h
  obtain ⟨d, captured, edged⟩ := andThen_eq_next h
  have afterTick : FlashAfter c n a := hs.otherOps (by simp [unflashedOps]) ticked
  have afterFlash : FlashAfter c (n + if carries w .tkf then 1 else 0) b := by
    obtain ⟨asked, flashed⟩ | ⟨asked, rfl⟩ := runOps_requested flashed
    · rw [if_pos asked]; exact afterTick.tickf flashed
    · rw [asked]; exact afterTick
  have afterTach := afterFlash.otherOps (by simp [unflashedOps]) captured
  exact afterTach.otherOps (fun _ => mem_unflashedOps_of_mem_decodeEdge) edged

/-- Only a flash tick moves the flash unit on, whatever turn it comes in. -/
theorem FlashAfter.turn {turn : Turn} (hs : FlashAfter c n s) (noReset : turn ≠ .reset)
    (h : act turn s = .next t) : FlashAfter c (n + if requests .tkf turn then 1 else 0) t := by
  cases turn with
  | reset => exact absurd rfl noReset
  | seq => exact hs.seq h
  | event w => exact hs.event h

end Flash

/-! ## The arithmetic of the lit count -/

section LitCount

variable {speed : Nat}

/-- The product `MAP` forms needs 8 bits more than the speed, because `TOTAL < 2^8` (41_mapper_flash.md R158). -/
theorem speed_mul_total_lt {c : LegalConfig} (h : speed < 2 ^ c.speedW) : speed * c.total < 2 ^ (c.speedW + 8) := by
  have total_lt : c.total < 2 ^ 8 := by have := c.total_range; omega
  rw [Nat.pow_add]
  exact Nat.mul_lt_mul'' h total_lt

/-- A configuration whose `LIT_W` is narrower than that product is refused (41_mapper_flash.md R158). -/
theorem isLegal_of_litW_lt {c : Config} (narrow : c.litW < c.speedW + 8) : c.isLegal = false := by
  refine Bool.eq_false_of_not_eq_true fun legal => ?_
  have wide : c.speedW + 8 ≤ c.litW := LegalConfig.litW_ge ⟨c, legal⟩
  omega

theorem litOf_mono (c : Config) {slow fast : Nat} (le : slow ≤ fast) : litOf c slow ≤ litOf c fast :=
  Nat.div_le_div_right (Nat.mul_le_mul_right _ le)

theorem redlineOf_mono {c : Config} {lit more : Nat} (le : lit ≤ more) (red : redlineOf c lit = true) :
    redlineOf c more = true := by
  rw [redlineOf, decide_eq_true_eq] at red ⊢
  exact red.trans_le le

/-- `ceil(k * CEIL / TOTAL)`, the speed from which segment `k` is lit, in the order of 41_mapper_flash.md R161. -/
def litFrom (c : Config) (k : Nat) : Nat := (k * c.ceil + c.total - 1) / c.total

/-- A speed has reached `ceil(k * CEIL / TOTAL)` when its product with `TOTAL` has reached `k * CEIL`. -/
theorem litFrom_le_iff (c : LegalConfig) (k : Nat) : litFrom c.toConfig k ≤ speed ↔ k * c.ceil ≤ speed * c.total := by
  rw [litFrom, ← Nat.ceilDiv_eq_add_pred_div, ceilDiv_le_iff_le_mul c.total_range.1, Nat.mul_comm speed]

/-- The boundary of the `k`-th segment (41_mapper_flash.md R161). -/
theorem le_litOf_iff (c : LegalConfig) (k : Nat) : k ≤ litOf c.toConfig speed ↔ litFrom c.toConfig k ≤ speed := by
  rw [litFrom_le_iff, litOf, Nat.le_div_iff_mul_le c.ceil_pos]

/-- The redline regime is the boundary of a segment the strip does not have (41_mapper_flash.md R161). -/
theorem redlineOf_litOf_iff (c : LegalConfig) :
    redlineOf c.toConfig (litOf c.toConfig speed) = true ↔ litFrom c.toConfig (c.total + 1) ≤ speed := by
  rw [redlineOf, decide_eq_true_eq, ← Nat.succ_le_iff, le_litOf_iff]

/-- At `CEIL` the strip is exactly full. -/
theorem litOf_ceil (c : LegalConfig) : litOf c.toConfig c.ceil = c.total :=
  Nat.mul_div_cancel_left _ c.ceil_pos

/-- At `CEIL` the redline regime is still to come: `CEIL * TOTAL` has not reached `(TOTAL + 1) * CEIL`. -/
theorem ceil_lt_redline (c : LegalConfig) : c.ceil < litFrom c.toConfig (c.total + 1) := by
  rw [← Nat.not_le, litFrom_le_iff, Nat.add_mul, Nat.mul_comm c.total]
  have := c.ceil_pos
  omega

/-- One step of speed above `CEIL` is worth `TOTAL`, which is less than the `CEIL` one more segment costs. -/
theorem succ_ceil_lt_redline {c : LegalConfig} (fine : c.total < c.ceil) :
    c.ceil + 1 < litFrom c.toConfig (c.total + 1) := by
  rw [← Nat.not_le, litFrom_le_iff, Nat.add_mul, Nat.add_mul, Nat.mul_comm c.total]
  omega

/-- The lit counts and regimes 41_mapper_flash.md R161 lists for the reference configuration. -/
theorem reference_litOf :
    ∀ x ∈ [(9599, 29, false), (9600, 30, false), (9601, 30, false), (9919, 30, false), (9920, 31, true),
        (320, 1, false), (319, 0, false)],
      litOf Config.reference x.1 = x.2.1 ∧ redlineOf Config.reference x.2.1 = x.2.2 := by
  decide

end LitCount

/-! ## The plan -/

section Plan

variable {c : Config} {lit : Nat}

theorem redlineOf_graduated (fits : lit ≤ c.total) : redlineOf c lit = false :=
  decide_eq_false (Nat.not_lt.2 fits)

theorem redlineOf_redline (beyond : c.total < lit) : redlineOf c lit = true := decide_eq_true beyond

theorem segEndOf_graduated (fits : lit ≤ c.total) (flash : Bool) : segEndOf c lit flash = lit :=
  if_neg (Nat.not_lt.2 fits)

theorem segEndOf_flash_on (beyond : c.total < lit) : segEndOf c lit true = c.total := if_pos beyond

theorem segEndOf_flash_off (beyond : c.total < lit) : segEndOf c lit false = 0 := if_pos beyond

end Plan

/-- The state `MAP` leaves (41_mapper_flash.md R156). -/
def State.mapped (s : State) : State :=
  { s with
    litCount := litOf s.cfg.toConfig s.speedValue
    redline := redlineOf s.cfg.toConfig (litOf s.cfg.toConfig s.speedValue)
    phaseLatch := s.flashPhase
    segEnd := segEndOf s.cfg.toConfig (litOf s.cfg.toConfig s.speedValue) s.flashPhase
    segIdx := 0
    phase := .clr }

section Mapped

variable (s : State)

theorem exec_map : exec .map s = .next s.mapped := rfl

@[simp] theorem State.mapped_litCount : s.mapped.litCount = litOf s.cfg.toConfig s.speedValue := rfl
@[simp] theorem State.mapped_redline :
    s.mapped.redline = redlineOf s.cfg.toConfig (litOf s.cfg.toConfig s.speedValue) := rfl
@[simp] theorem State.mapped_phaseLatch : s.mapped.phaseLatch = s.flashPhase := rfl
@[simp] theorem State.mapped_segEnd :
    s.mapped.segEnd = segEndOf s.cfg.toConfig (litOf s.cfg.toConfig s.speedValue) s.flashPhase := rfl

end Mapped

/-! ## The words and the image of a pass -/

section Picture

variable (c : Config) (redline : Bool)

/-- The word of segment `k` in a pass. -/
def passWord (k : Nat) : StripWord :=
  StripCommand.word (.seg c.brightness (passColor c redline k).r (passColor c redline k).g (passColor c redline k).b)

theorem passWords_zero : passWords c redline 0 = [StripCommand.word .clr] := rfl

theorem passWords_succ (k : Nat) : passWords c redline (k + 1) = passWords c redline k ++ [passWord c redline k] := by
  rw [passWords, List.range_succ, List.map_append]
  rfl

theorem passImage_zero : passImage c redline 0 = List.replicate c.total (some .off) := by
  simp [passImage]

/-- Inside the strip the payload's colour is the pass's (43_strip_sequencer.md R204). -/
theorem payloadColor_eq_passColor {k : Nat} (inside : k < c.total) :
    payloadColor c redline k = some (passColor c redline k) :=
  payloadColor_some c redline inside

/-- A `SEG` at segment `k` makes the image of `k` segments the image of `k + 1` (43_strip_sequencer.md R212). -/
theorem write_passImage {k : Nat} (inside : k < c.total) :
    StripView.write c.total ⟨passImage c redline k, k⟩ (passValue c redline k) =
      ⟨passImage c redline (k + 1), k + 1⟩ := by
  rw [StripView.write, if_pos inside, StripView.mk.injEq]
  refine ⟨List.ext_getElem (by simp [passImage]) fun i _ _ => ?_, rfl⟩
  simp only [passImage, List.getElem_set, List.getElem_map, List.getElem_range]
  obtain below | rfl | above := Nat.lt_trichotomy i k
  · rw [if_neg (Nat.ne_of_gt below), if_pos below, if_pos (Nat.lt_succ_of_lt below)]
  · rw [if_pos rfl, if_pos (Nat.lt_succ_self i)]
  · rw [if_neg (Nat.ne_of_lt above), if_neg (by omega), if_neg (by omega)]

end Picture

/-! ## Along the sequencer steps of a list of turns -/

/-- Induction over turns by their sequencer steps: what every event keeps and every sequencer step hands on to the next
number holds at the end of the number with all sequencer steps counted in. -/
theorem runTurns_seqSteps {P : Nat → State → Prop} {ts : List Turn} (noReset : .reset ∉ ts)
    (seq : ∀ n s t, P n s → act .seq s = .next t → P (n + 1) t)
    (event : ∀ n w s t, P n s → act (.event w) s = .next t → P n t)
    {n : Nat} {s t : State} (hs : P n s) (h : runTurns ts s = .next t) : P (n + seqCount ts) t := by
  induction ts generalizing n s with
  | nil => cases h; exact hs
  | cons turn ts ih =>
    obtain ⟨u, hu, rest⟩ := andThen_eq_next h
    have noReset' : .reset ∉ ts := List.not_mem_of_not_mem_cons noReset
    cases turn with
    | reset => exact absurd List.mem_cons_self noReset
    | seq =>
      rw [seqCount_seq_cons, Nat.add_comm (seqCount ts), ← Nat.add_assoc]
      exact ih noReset' (seq n s u hs hu) rest
    | event w =>
      rw [seqCount_event_cons]
      exact ih noReset' (event n w s u hs hu) rest

/-! ## Where a pass is -/

/-- The plan of `start`, with the regime and the sources it was made from, is the plan of `s`. -/
structure SamePlan (start s : State) : Prop where
  cfg : s.cfg = start.cfg
  lit : s.litCount = start.litCount
  redline : s.redline = start.redline
  latch : s.phaseLatch = start.phaseLatch
  plan : s.segEnd = start.segEnd

/-- The pass planned in `start` has cleared the strip and commanded `k` segments since (43_strip_sequencer.md R204). -/
structure Drawn (start : State) (k : Nat) (s : State) : Prop extends SamePlan start s where
  idx : s.segIdx = k
  out : s.stripOut = start.stripOut ++ passWords start.cfg.toConfig start.redline k
  strip : s.strip = ⟨passImage start.cfg.toConfig start.redline k, k⟩

/-- Where the pass planned in `start` is after a number of sequencer steps: `SCLR`, one `SSEG` per segment, and the
`SSEG` that closes it. -/
inductive PassAfter (start : State) : Nat → State → Prop
  | planned {s : State} (plan : SamePlan start s) (phase : s.phase = .clr) (idx : s.segIdx = 0)
      (out : s.stripOut = start.stripOut) : PassAfter start 0 s
  | drawing {k : Nat} {s : State} (drawn : Drawn start k s) (phase : s.phase = .seg) (fits : k ≤ start.segEnd) :
      PassAfter start (k + 1) s
  | closed {s : State} (drawn : Drawn start start.segEnd s) (phase : s.phase = .chkc) :
      PassAfter start (start.segEnd + 2) s

section Pass

variable {start s t : State} {n k : Nat}

theorem SamePlan.of_eventFrame (hs : SamePlan start s) (frame : EventFrame s t) : SamePlan start t := by
  rw [frame]; exact { hs with }

theorem Drawn.of_eventFrame (hs : Drawn start k s) (frame : EventFrame s t) : Drawn start k t := by
  rw [frame]; exact { hs with }

/-- Events take no part in a pass (44_step_and_loop.md R228). -/
theorem PassAfter.event {w : EventWord} (hs : PassAfter start n s) (h : act (.event w) s = .next t) :
    PassAfter start n t := by
  have frame := act_event_frame h
  cases hs with
  | planned plan phase idx out =>
    exact .planned (plan.of_eventFrame frame) (frame.phase.trans phase) (frame.segIdx.trans idx)
      (frame.stripOut.trans out)
  | drawing drawn phase fits => exact .drawing (drawn.of_eventFrame frame) (frame.phase.trans phase) fits
  | closed drawn phase => exact .closed (drawn.of_eventFrame frame) (frame.phase.trans phase)

/-- `SCLR` opens the pass: one `CLR` and a dark strip (43_strip_sequencer.md R200). -/
theorem SamePlan.drawn_sclr (hs : SamePlan start s) (idx : s.segIdx = 0) (out : s.stripOut = start.stripOut)
    (h : execSclr s = .next t) : Drawn start 0 t ∧ t.phase = .seg := by
  cases (execSclr_eq s).symm.trans h
  refine ⟨{ hs with idx := idx, out := ?_, strip := ?_ }, rfl⟩
  · rw [passWords_zero, ← out]; rfl
  · rw [passImage_zero, ← hs.cfg]; rfl

/-- An `SSEG` below `SegEnd` draws the next segment of the pass (43_strip_sequencer.md R202). -/
theorem Drawn.sseg_below (hs : Drawn start k s) (inv : start.Inv) (below : k < start.segEnd)
    (h : execSseg s = .next t) : Drawn start (k + 1) t ∧ t.phase = s.phase := by
  have inside : k < start.cfg.total := below.trans_le inv.planInStrip
  obtain ⟨-, x, color, rfl⟩ | ⟨done, -⟩ := execSseg_next h
  · rw [hs.cfg, hs.redline, hs.idx, payloadColor_eq_passColor _ _ inside, Option.some.injEq] at color
    subst color
    refine ⟨{ hs with idx := congrArg (· + 1) hs.idx, out := ?_, strip := ?_ }, rfl⟩
    · simp only [State.setStrip_stripOut, State.logWord_stripOut, hs.out, hs.cfg, passWords_succ, List.append_assoc]
      rfl
    · simp only [State.setStrip_strip, hs.strip, hs.cfg]
      exact write_passImage _ _ inside
  · rw [hs.idx, hs.plan] at done
    exact absurd below done

/-- The `SSEG` at `SegEnd` closes the pass (43_strip_sequencer.md R202). -/
theorem Drawn.sseg_done (hs : Drawn start start.segEnd s) (h : execSseg s = .next t) :
    Drawn start start.segEnd t ∧ t.phase = .chkc := by
  obtain ⟨below, -⟩ | ⟨-, rfl⟩ := execSseg_next h
  · rw [hs.idx, hs.plan] at below
    exact absurd below (Nat.lt_irrefl _)
  · exact ⟨{ hs with }, rfl⟩

/-- A sequencer step takes the pass one step on, until it is closed. -/
theorem PassAfter.seq (hs : PassAfter start n s) (inv : start.Inv) (going : n < start.segEnd + 2)
    (h : act .seq s = .next t) : PassAfter start (n + 1) t := by
  cases hs with
  | planned plan phase idx out =>
    obtain ⟨drawn, next⟩ := plan.drawn_sclr idx out ((act_seq_eq phase).symm.trans h)
    exact .drawing drawn next (Nat.zero_le _)
  | drawing drawn phase fits =>
    have sseg := (act_seq_eq phase).symm.trans h
    obtain below | rfl := Nat.lt_or_eq_of_le fits
    · obtain ⟨drawn, same⟩ := drawn.sseg_below inv below sseg
      exact .drawing drawn (same.trans phase) below
    · obtain ⟨drawn, next⟩ := drawn.sseg_done sseg
      exact .closed drawn next
  | closed => exact absurd going (Nat.lt_irrefl _)

/-- With all its sequencer steps done, the pass is closed and all its segments are drawn. -/
theorem PassAfter.complete (hs : PassAfter start (start.segEnd + 2) s) :
    Drawn start start.segEnd s ∧ s.phase = .chkc := by
  generalize steps : start.segEnd + 2 = n at hs
  cases hs with
  | planned => cases steps
  | drawing _ _ fits => omega
  | closed drawn phase => exact ⟨drawn, phase⟩

/-- A planned pass runs to `CHKC` with every segment of its plan drawn, whatever events fall inside it
(43_strip_sequencer.md R204, R206). -/
theorem runTurns_pass {ts : List Turn} (inv : start.Inv) (clr : start.phase = .clr) (idx : start.segIdx = 0)
    (noReset : .reset ∉ ts) (steps : seqCount ts = start.segEnd + 2) :
    ∃ t, runTurns ts start = .next t ∧ t.phase = .chkc ∧ Drawn start start.segEnd t := by
  obtain ⟨t, ht⟩ := runTurns_completes ts inv
  have after : 0 + seqCount ts ≤ start.segEnd + 2 → PassAfter start (0 + seqCount ts) t :=
    runTurns_seqSteps (P := fun n u => n ≤ start.segEnd + 2 → PassAfter start n u) noReset
      (fun _ _ _ hu h going => (hu (Nat.le_of_succ_le going)).seq inv going h)
      (fun _ _ _ _ hu h going => (hu going).event h)
      (fun _ => .planned ⟨rfl, rfl, rfl, rfl, rfl⟩ clr idx rfl) ht
  rw [Nat.zero_add, steps] at after
  obtain ⟨drawn, phase⟩ := (after (Nat.le_refl _)).complete
  exact ⟨t, ht, phase, drawn⟩

/-- From `P_MAP` the pass is the one `MAP` plans. -/
theorem runTurns_map_pass {ts : List Turn} (inv : s.Inv) (map : s.phase = .map) (noReset : .reset ∉ ts)
    (steps : seqCount ts = s.mapped.segEnd + 2) :
    ∃ t, runTurns (.seq :: ts) s = .next t ∧ t.phase = .chkc ∧ Drawn s.mapped s.mapped.segEnd t := by
  have first : act .seq s = .next s.mapped := act_seq_eq map
  obtain ⟨t, ht, phase, drawn⟩ := runTurns_pass (act_keeps_inv inv first) rfl rfl noReset steps
  exact ⟨t, by rw [runTurns, first, andThen_next, ht], phase, drawn⟩

/-- The same with the plan and the regime `MAP` answers with given, and what the pass shows written out. -/
theorem runTurns_map_pass_of {ts : List Turn} (inv : s.Inv) (map : s.phase = .map) (noReset : .reset ∉ ts)
    {red : Bool} (regime : s.mapped.redline = red) (plan : s.mapped.segEnd = n) (steps : seqCount ts = n + 2) :
    ∃ t, runTurns (.seq :: ts) s = .next t ∧ t.phase = .chkc ∧ t.redline = red ∧ t.segEnd = n ∧
      t.stripOut = s.stripOut ++ passWords s.cfg.toConfig red n ∧
      t.strip.image = passImage s.cfg.toConfig red n := by
  subst regime plan
  obtain ⟨t, ht, phase, drawn⟩ := runTurns_map_pass inv map noReset steps
  exact ⟨t, ht, phase, drawn.redline, drawn.plan, drawn.out, congrArg StripView.image drawn.strip⟩

end Pass

/-! ## The obligations -/

/-- Settles O8, by induction over the turns: the flash unit is that of the ticks counted so far. -/
theorem flashSquareWave : Obligations.FlashSquareWave := by
  intro c ts noReset
  obtain ⟨t, ht⟩ := runTurns_completes ts (resetOf_inv c)
  have flash : FlashAfter c (0 + requestCount .tkf ts) t :=
    runTurns_counts .tkf (fun _ mem _ _ _ hs h => hs.turn (fun reset => noReset (reset ▸ mem)) h)
      (flashAfter_reset c) ht
  rw [Nat.zero_add] at flash
  exact ⟨t, ht, flash.timer, flash.phase, flash.compare⟩

/-- Settles O7: bit 5 alone asks for `TICKF`; its two branches, written out. -/
theorem tickfTogglesOnMatch : Obligations.TickfTogglesOnMatch :=
  ⟨by decide, fun _ => ⟨fun hit => if_pos hit, fun miss => if_neg miss⟩⟩

/-- Settles O31: the pass from `P_MAP` draws the plan of `MAP`, which is one of the three of the table of R157. -/
theorem passByRegime : Obligations.PassByRegime := by
  intro s ts lit inv map speed noReset
  have redline : s.mapped.redline = redlineOf s.cfg.toConfig lit := by rw [speed]; rfl
  have plan : s.mapped.segEnd = segEndOf s.cfg.toConfig lit s.flashPhase := by rw [speed]; rfl
  refine ⟨fun fits => ?_, fun beyond flash => ?_, fun beyond flash steps => ?_⟩
  · rw [redlineOf_graduated fits] at redline
    rw [segEndOf_graduated fits] at plan
    exact runTurns_map_pass_of inv map noReset redline plan
  · rw [redlineOf_redline beyond] at redline
    rw [flash, segEndOf_flash_on beyond] at plan
    exact runTurns_map_pass_of inv map noReset redline plan
  · rw [redlineOf_redline beyond] at redline
    rw [flash, segEndOf_flash_off beyond] at plan
    obtain ⟨t, ht, phase, red, segEnd, out, image⟩ := runTurns_map_pass_of inv map noReset redline plan steps
    rw [passWords_zero, clr_word_eq_zero] at out
    rw [passImage_zero] at image
    exact ⟨t, ht, phase, red, segEnd, out, image⟩

/-- Settles O32: `MAP` makes the plan of the configuration, the speed and the flash phase alone, and the words of a pass
are those of its plan. -/
theorem samePlanSameCommands : Obligations.SamePlanSameCommands := by
  intro s₁ s₂ ts₁ ts₂ plan inv₁ inv₂ cfg map₁ map₂ speed flash plan_eq noReset₁ noReset₂ steps₁ steps₂
  have plan₁ : s₁.mapped.segEnd = plan := plan_eq.symm
  have lit : s₁.mapped.litCount = s₂.mapped.litCount := by simp only [State.mapped_litCount, cfg, speed]
  have red : s₁.mapped.redline = s₂.mapped.redline := by simp only [State.mapped_redline, cfg, speed]
  have same : s₁.mapped.segEnd = s₂.mapped.segEnd := by simp only [State.mapped_segEnd, cfg, speed, flash]
  obtain ⟨t₁, run₁, phase₁, drawn₁⟩ := runTurns_map_pass inv₁ map₁ noReset₁ (by rw [steps₁, plan₁])
  obtain ⟨t₂, run₂, phase₂, drawn₂⟩ := runTurns_map_pass inv₂ map₂ noReset₂ (by rw [steps₂, ← same, plan₁])
  refine ⟨t₁, t₂, passWords s₁.cfg.toConfig s₁.mapped.redline plan, run₁, run₂, phase₁, phase₂,
    drawn₁.plan.trans plan₁, drawn₂.plan.trans (same.symm.trans plan₁), ?_, ?_, ?_, ?_, ?_⟩
  · rw [drawn₁.redline, drawn₂.redline, red]
  · rw [drawn₁.lit, drawn₂.lit, lit]
  · rw [drawn₁.latch, drawn₂.latch, State.mapped_phaseLatch, State.mapped_phaseLatch, flash]
  · rw [drawn₁.out, plan₁]; rfl
  · rw [drawn₂.out, ← red, ← same, plan₁, cfg]; rfl

/-- Settles O9: the state `MAP` leaves, written out. -/
theorem mapWritesRenderPlan : Obligations.MapWritesRenderPlan :=
  ⟨rfl, exec_map⟩

/-- Settles O10: the product needs 8 bits more than the speed, the quotient is no more than the product, and the plan is
at most `TOTAL`. -/
theorem mapResultsFitTheirRegisters : Obligations.MapResultsFitTheirRegisters := by
  refine ⟨fun s t fits h => ?_, fun _ => isLegal_of_litW_lt⟩
  cases (exec_map s).symm.trans h
  have plan : s.mapped.segEnd ≤ s.cfg.total := segEndOf_le_total ..
  exact ⟨speed_mul_total_lt fits, rfl, Nat.div_le_self .., litOf_lt s.cfg fits,
    plan.trans s.cfg.total_range.2, plan.trans_lt s.cfg.total_lt_segW⟩

/-- Settles O11: the laws of the lit count and of its boundaries, which are what `MAP` writes. -/
theorem mapperLaws : Obligations.MapperLaws := by
  refine ⟨fun s₁ s₂ t₁ t₂ cfg h₁ h₂ le => ?_, fun s t h => ?_, fun x mem => ?_⟩
  · cases (exec_map s₁).symm.trans h₁
    cases (exec_map s₂).symm.trans h₂
    simp only [State.mapped_litCount, State.mapped_redline, ← cfg]
    have more := litOf_mono s₁.cfg.toConfig le
    exact ⟨more, redlineOf_mono more⟩
  · cases (exec_map s).symm.trans h
    refine ⟨le_litOf_iff s.cfg, redlineOf_litOf_iff s.cfg, ceil_lt_redline s.cfg, fun atCeil => ?_,
      fun fine _ near => ?_⟩
    · rw [State.mapped_litCount, atCeil, litOf_ceil]
    · have before := near.trans_lt (succ_ceil_lt_redline fine)
      rw [State.mapped_redline, Bool.eq_false_iff, ne_eq, redlineOf_litOf_iff]
      omega
  · obtain ⟨lit, red⟩ := reference_litOf x mem
    refine ⟨_, exec_map _, lit, ?_⟩
    rw [← red, ← lit]
    rfl

end Sys2Proof.Machine

/-! # Proofs: the shift arbiter

The layers, in order: the arithmetic of the two display writes; the two directions of a shift and what each operation of
a direction does, once for both; the relays; the writes of a shift under any events; what the display shows after every
step; the orders of the shift step. The obligations are settled at the end. -/

namespace Sys2Proof.Machine

/-! ## The bits of the display -/

section DisplayBits

variable {w x a d m : Nat}

theorem testBit_assertBits (hx : x < 2 ^ w) (ha : a < 2 ^ w) (i : Nat) :
    (assertBits w x a).testBit i = (x.testBit i || a.testBit i) := by
  rw [assertBits_eq hx ha, Nat.testBit_or]

/-- Above the display's width both sides are 0: the register has no bit there to release. -/
theorem testBit_releaseBits (hx : x < 2 ^ w) (i : Nat) :
    (releaseBits w x d).testBit i = (x.testBit i && !d.testBit i) := by
  rw [releaseBits, BitVec.testBit_toNat, BitVec.getLsbD_and, BitVec.getLsbD_not, BitVec.getLsbD_ofNat,
    BitVec.getLsbD_ofNat]
  by_cases inside : i < w
  · simp [inside]
  · have above : x < 2 ^ i := hx.trans_le (Nat.pow_le_pow_right Nat.zero_lt_two (Nat.le_of_not_lt inside))
    simp [inside, Nat.testBit_lt_two_pow above]

/-- A display with no bit outside `m` fits any width that `m` fits. -/
theorem lt_two_pow_of_or_eq (within : x ||| m = m) (fits : m < 2 ^ w) : x < 2 ^ w :=
  (within ▸ Nat.left_le_or : x ≤ m).trans_lt fits

theorem testBit_of_or_eq (within : x ||| m = m) {i : Nat} (set : x.testBit i = true) : m.testBit i = true := by
  rw [← within, Nat.testBit_or, set, Bool.true_or]

theorem not_testBit_of_and_eq_zero (disjoint : a &&& d = 0) (i : Nat) : (a.testBit i && d.testBit i) = false := by
  rw [← Nat.testBit_and, disjoint, Nat.zero_testBit]

/-- With entries complete over `m`, the mask write takes off every bit of `m` the new digit has not
(42_shift_arbiter.md R187). -/
theorem releaseBits_or_eq (fits : x ||| a < 2 ^ w) (disjoint : a &&& d = 0) (complete : a ||| d = m)
    (within : x ||| m = m) : releaseBits w (x ||| a) d = a := by
  apply Nat.eq_of_testBit_eq
  intro i
  have apart := not_testBit_of_and_eq_zero disjoint i
  have inM := testBit_of_or_eq within (i := i)
  rw [← complete, Nat.testBit_or] at inM
  rw [testBit_releaseBits fits, Nat.testBit_or]
  cases released : d.testBit i with
  | true =>
    rw [released, Bool.and_true] at apart
    rw [apart, Bool.not_true, Bool.and_false]
  | false => simpa [released] using inM

/-- Entries with no bit in common: the asserted bits are 1, the released ones 0, the others as they were
(42_shift_arbiter.md R187). -/
theorem shown_of_disjoint {y : Nat} (disjoint : a &&& d = 0)
    (bits : ∀ i, y.testBit i = ((x.testBit i || a.testBit i) && !d.testBit i)) :
    y &&& a = a ∧ y &&& d = 0 ∧ ∀ i, a.testBit i = false → d.testBit i = false → y.testBit i = x.testBit i := by
  refine ⟨Nat.eq_of_testBit_eq fun i => ?_, Nat.eq_of_testBit_eq fun i => ?_, fun i notAsserted notReleased => ?_⟩
  · have apart := not_testBit_of_and_eq_zero disjoint i
    rw [Nat.testBit_and, bits]
    cases asserted : a.testBit i <;> simp_all
  · rw [Nat.testBit_and, bits, Nat.zero_testBit]
    cases d.testBit i <;> simp
  · rw [bits, notAsserted, notReleased, Bool.or_false, Bool.not_false, Bool.and_true]

end DisplayBits

/-- The entry of a gear of a legal configuration is what a table read answers, and has the display's width. -/
theorem dispAssertAt_of_getElem? {c : LegalConfig} {g : Gear} {a : Nat} (low : 1 ≤ g.toNat)
    (entry : c.dispAssert[g.toNat - 1]? = some a) : dispAssertAt c.toConfig g = some a ∧ a < 2 ^ c.dispW := by
  obtain ⟨b, read, same, fits⟩ := dispAssertAt_some c low
  cases entry.symm.trans same
  exact ⟨read, fits⟩

theorem dispDeassertAt_of_getElem? {c : LegalConfig} {g : Gear} {d : Nat} (low : 1 ≤ g.toNat)
    (entry : c.dispDeassert[g.toNat - 1]? = some d) :
    dispDeassertAt c.toConfig g = some d ∧ d < 2 ^ c.dispW := by
  obtain ⟨b, read, same, fits⟩ := dispDeassertAt_some c low
  cases entry.symm.trans same
  exact ⟨read, fits⟩

theorem displayAssert_eq {s : State} {a : Nat} (entry : dispAssertAt s.cfg.toConfig s.gearIndex = some a) (p : Phase) :
    displayAssert p s = .next ((s.setDisplay (assertBits s.cfg.dispW s.dispOut a)).goto p) := by
  rw [displayAssert, entry, withEntry]

theorem displayMask_eq {s : State} {d : Nat} (entry : dispDeassertAt s.cfg.toConfig s.gearIndex = some d) (p : Phase) :
    displayMask p s = .next ((s.setDisplay (releaseBits s.cfg.dispW s.dispOut d)).goto p) := by
  rw [displayMask, entry, withEntry]

/-- An assert write with its effect written as the or of the register and the entry. -/
theorem displayAssert_eq_or {s : State} {a : Nat} (entry : dispAssertAt s.cfg.toConfig s.gearIndex = some a)
    (display : s.dispOut < 2 ^ s.cfg.dispW) (fits : a < 2 ^ s.cfg.dispW) (p : Phase) :
    displayAssert p s = .next ((s.setDisplay (s.dispOut ||| a)).goto p) := by
  rw [displayAssert_eq entry, assertBits_eq display fits]

/-- A mask write with its effect written as the and with the complement at the display's width. -/
theorem displayMask_eq_and {s : State} {d : Nat} (entry : dispDeassertAt s.cfg.toConfig s.gearIndex = some d)
    (display : s.dispOut < 2 ^ s.cfg.dispW) (fits : d < 2 ^ s.cfg.dispW) (p : Phase) :
    displayMask p s = .next ((s.setDisplay (s.dispOut &&& (2 ^ s.cfg.dispW - 1 - d))).goto p) := by
  rw [displayMask_eq entry, releaseBits_eq display fits]

/-! ## The two directions of a shift -/

theorem State.goto_goto (s : State) (p q : Phase) : (s.goto p).goto q = s.goto q := rfl
theorem State.setDisplay_setDisplay (s : State) (x y : Nat) : (s.setDisplay x).setDisplay y = s.setDisplay y := rfl
theorem State.setDisplay_goto (s : State) (p : Phase) (x : Nat) : (s.goto p).setDisplay x = (s.setDisplay x).goto p :=
  rfl

/-- The direction of a shift: down is symmetric to up (42_shift_arbiter.md R196). -/
inductive Direction where
  | up | dn

namespace Direction

/-- The phase that steps the gear. -/
def stepPhase : Direction → Phase
  | up => .shup
  | dn => .shdn

/-- The phase of the assert write. -/
def assertPhase : Direction → Phase
  | up => .dau
  | dn => .dad

/-- The phase of the mask write. -/
def maskPhase : Direction → Phase
  | up => .dmu
  | dn => .dmd

/-- The phase that clears the confirm flag. -/
def clearPhase : Direction → Phase
  | up => .clu
  | dn => .cld

/-- The phase after the direction is done: the down direction follows the up one. -/
def endPhase : Direction → Phase
  | up => .shdn
  | dn => .chks

/-- The gear one step on. -/
def move : Direction → Gear → Gear
  | up, g => g + 1
  | dn, g => g - 1

/-- The gear one step back. -/
def back : Direction → Gear → Gear
  | up, g => g - 1
  | dn, g => g + 1

/-- The guard of the direction's gear step (42_shift_arbiter.md R180, R188). -/
def allowed : Direction → State → Bool
  | up, s => upAllowed s.confirmUp s.gearIndex
  | dn, s => downAllowed s.confirmDn s.gearIndex

/-- The confirm flag of the direction. -/
def confirm : Direction → State → Bool
  | up, s => s.confirmUp
  | dn, s => s.confirmDn

/-- The state with the direction's confirm flag written. -/
def setConfirm : Direction → Bool → State → State
  | up, b, s => { s with confirmUp := b }
  | dn, b, s => { s with confirmDn := b }

/-- The relay that a paddle edge of the direction drives. -/
def relay : Direction → State → Bool
  | up, s => s.actUp
  | dn, s => s.actDn

/-- The edges that release the direction's relay: the opposite paddle and both confirms (42_shift_arbiter.md R170 to
R176). -/
def releasing : Direction → List Instr
  | up => [.svpd, .svcu, .svcd]
  | dn => [.svpu, .svcu, .svcd]

variable {s : State}

@[simp] theorem back_move (dir : Direction) (g : Gear) : dir.back (dir.move g) = g := by
  cases dir with
  | up => exact BitVec.add_sub_cancel ..
  | dn => exact BitVec.sub_add_cancel ..

@[simp] theorem confirm_setConfirm_goto (dir : Direction) (b : Bool) (s : State) (p : Phase) :
    dir.confirm ((dir.setConfirm b s).goto p) = b := by
  cases dir <;> rfl

@[simp] theorem setConfirm_gearIndex (dir : Direction) (b : Bool) (s : State) :
    (dir.setConfirm b s).gearIndex = s.gearIndex := by
  cases dir <;> rfl

@[simp] theorem setConfirm_cfg (dir : Direction) (b : Bool) (s : State) : (dir.setConfirm b s).cfg = s.cfg := by
  cases dir <;> rfl

@[simp] theorem setConfirm_dispOut (dir : Direction) (b : Bool) (s : State) :
    (dir.setConfirm b s).dispOut = s.dispOut := by
  cases dir <;> rfl

theorem setConfirm_goto (dir : Direction) (b : Bool) (s : State) (p : Phase) :
    dir.setConfirm b (s.goto p) = (dir.setConfirm b s).goto p := by
  cases dir <;> rfl

theorem exec_assertPhase (dir : Direction) (s : State) :
    exec dir.assertPhase.microOp s = displayAssert dir.maskPhase s := by
  cases dir <;> rfl

theorem exec_maskPhase (dir : Direction) (s : State) :
    exec dir.maskPhase.microOp s = displayMask dir.clearPhase s := by
  cases dir <;> rfl

theorem exec_clearPhase (dir : Direction) (s : State) :
    exec dir.clearPhase.microOp s = .next ((dir.setConfirm false s).goto dir.endPhase) := by
  cases dir <;> rfl

theorem exec_stepPhase_allowed {dir : Direction} (allowed : dir.allowed s = true) :
    exec dir.stepPhase.microOp s =
      .next ({ s with gearIndex := dir.move s.gearIndex }.goto dir.assertPhase) := by
  cases dir <;> exact if_pos allowed

theorem exec_stepPhase_refused {dir : Direction} (refused : dir.allowed s = false) :
    exec dir.stepPhase.microOp s =
      .next ((dir.setConfirm (confirmAtBound s.cfg.toConfig (dir.confirm s)) s).goto dir.endPhase) := by
  cases dir <;> exact if_neg (Bool.eq_false_iff.1 refused)

end Direction

section Guards

variable {confirm : Bool} {g : Gear}

theorem upAllowed_iff : upAllowed confirm g = true ↔ confirm = true ∧ g.toNat < 6 := by
  simp [upAllowed, gearMax, BitVec.lt_def]

theorem downAllowed_iff : downAllowed confirm g = true ↔ confirm = true ∧ 1 < g.toNat := by
  simp [downAllowed, gearMin, BitVec.lt_def]

theorem confirmAtBound_eq (c : Config) (confirm : Bool) :
    confirmAtBound c confirm = if confirm = true ∧ c.clearOnBound = true then false else confirm := by
  simp [confirmAtBound]

end Guards

theorem exec_chkc_confirmed {s : State} (confirmed : s.confirmUp = true ∨ s.confirmDn = true) :
    exec .chkc s = .next (s.goto .shup) :=
  if_pos (Bool.or_eq_true_iff.2 confirmed)

theorem exec_chkc_none {s : State} (up : s.confirmUp = false) (dn : s.confirmDn = false) :
    exec .chkc s = .next (s.goto .chks) := by
  simp [exec, execChkc, up, dn]

/-! ## The relays -/

section Relays

variable {dir : Direction} {s t : State}

/-- An event operation that does not release the relay leaves it driven (70_reset_and_hazards.md R288). -/
theorem exec_event_keeps_relay {i : Instr} (hi : i ∈ eventOps) (holds : i ∉ dir.releasing)
    (driven : dir.relay s = true) (h : exec i s = .next t) : dir.relay t = true := by
  cases i with
  | tickc | tach | nope => cases h; cases dir <;> exact driven
  | tickf => obtain ⟨-, rfl⟩ | ⟨-, rfl⟩ := execTickf_next h <;> cases dir <;> exact driven
  | svcu | svcd => cases dir <;> simp [Direction.releasing] at holds
  | svpu =>
    cases h
    cases dir with
    | up => rfl
    | dn => simp [Direction.releasing] at holds
  | svpd =>
    cases h
    cases dir with
    | up => simp [Direction.releasing] at holds
    | dn => rfl
  | _ => simp [eventOps] at hi

/-- The relays belong to the event context: no micro-operation writes them (10_state.md R45). -/
theorem SequencerFrame.relay (h : SequencerFrame s t) (dir : Direction) : dir.relay t = dir.relay s := by
  rw [h]; cases dir <;> rfl

/-- A driven relay stays driven under every turn but `RESET` and a word with an edge that releases it
(70_reset_and_hazards.md R288). -/
theorem act_keeps_relay {turn : Turn} (noReset : turn ≠ .reset)
    (holds : ∀ w, turn = .event w → ∀ i ∈ dir.releasing, i ∉ decodeEvent w) (driven : dir.relay s = true)
    (h : act turn s = .next t) : dir.relay t = true := by
  cases turn with
  | reset => exact absurd rfl noReset
  | seq => exact ((exec_microOp_frame h).relay dir).trans driven
  | event w =>
    exact runOps_keeps (P := fun u => dir.relay u = true)
      (fun i hi _ _ => exec_event_keeps_relay (mem_eventOps_of_mem_decodeEvent hi) fun releases =>
        holds w rfl i releases hi)
      driven h

end Relays

/-! ## The writes of a shift -/

theorem EventFrame.gearIndex {s t : State} (h : EventFrame s t) : t.gearIndex = s.gearIndex := by rw [h]
theorem EventFrame.dispOut {s t : State} (h : EventFrame s t) : t.dispOut = s.dispOut := by rw [h]

/-- `u` is in a phase with a display, in the configuration and the gear of `start`. -/
structure ShiftAt (start : State) (phase : Phase) (display : Nat) (u : State) : Prop where
  cfg : u.cfg = start.cfg
  gear : u.gearIndex = start.gearIndex
  phase : u.phase = phase
  display : u.dispOut = display

/-- Where the display writes of a shift with entries `a` and `d` are after a number of sequencer steps from `start`, and
what the display is by then (42_shift_arbiter.md R187). -/
inductive WritesAfter (dir : Direction) (start : State) (a d : Nat) : Nat → State → Prop
  | begun {u : State} (here : ShiftAt start dir.assertPhase start.dispOut u) : WritesAfter dir start a d 0 u
  | asserted {u : State}
      (here : ShiftAt start dir.maskPhase (assertBits start.cfg.dispW start.dispOut a) u) :
      WritesAfter dir start a d 1 u
  | masked {u : State}
      (here : ShiftAt start dir.clearPhase
        (releaseBits start.cfg.dispW (assertBits start.cfg.dispW start.dispOut a) d) u) :
      WritesAfter dir start a d 2 u

section Writes

variable {dir : Direction} {start s t : State} {a d n : Nat}

theorem ShiftAt.event {p : Phase} {x : Nat} {w : EventWord} (hs : ShiftAt start p x s)
    (h : act (.event w) s = .next t) : ShiftAt start p x t := by
  have frame := act_event_frame h
  exact ⟨frame.cfg.trans hs.cfg, frame.gearIndex.trans hs.gear, frame.phase.trans hs.phase,
    frame.dispOut.trans hs.display⟩

/-- Events take no part in the writes (44_step_and_loop.md R228). -/
theorem WritesAfter.event {w : EventWord} (hs : WritesAfter dir start a d n s) (h : act (.event w) s = .next t) :
    WritesAfter dir start a d n t := by
  cases hs with
  | begun here => exact .begun (here.event h)
  | asserted here => exact .asserted (here.event h)
  | masked here => exact .masked (here.event h)

theorem WritesAfter.seq (hs : WritesAfter dir start a d n s) (going : n < 2)
    (asserts : dispAssertAt start.cfg.toConfig start.gearIndex = some a)
    (releases : dispDeassertAt start.cfg.toConfig start.gearIndex = some d) (h : act .seq s = .next t) :
    WritesAfter dir start a d (n + 1) t := by
  cases hs with
  | begun here =>
    rw [act_seq_eq here.phase, dir.exec_assertPhase, displayAssert_eq (by rw [here.cfg, here.gear, asserts])] at h
    cases h
    exact .asserted ⟨here.cfg, here.gear, rfl, by simp [here.cfg, here.display]⟩
  | asserted here =>
    rw [act_seq_eq here.phase, dir.exec_maskPhase, displayMask_eq (by rw [here.cfg, here.gear, releases])] at h
    cases h
    exact .masked ⟨here.cfg, here.gear, rfl, by simp [here.cfg, here.display]⟩
  | masked => exact absurd going (Nat.lt_irrefl 2)

/-- From the assert phase two sequencer steps do both writes, whatever events fall between them. -/
theorem runTurns_writes {ts : List Turn} (inv : s.Inv) (phase : s.phase = dir.assertPhase)
    (asserts : dispAssertAt s.cfg.toConfig s.gearIndex = some a)
    (releases : dispDeassertAt s.cfg.toConfig s.gearIndex = some d) (noReset : .reset ∉ ts) (steps : seqCount ts = 2) :
    ∃ t, runTurns ts s = .next t ∧
      ShiftAt s dir.clearPhase (releaseBits s.cfg.dispW (assertBits s.cfg.dispW s.dispOut a) d) t := by
  obtain ⟨t, ht⟩ := runTurns_completes ts inv
  have after : 0 + seqCount ts ≤ 2 → WritesAfter dir s a d (0 + seqCount ts) t :=
    runTurns_seqSteps (P := fun n u => n ≤ 2 → WritesAfter dir s a d n u) noReset
      (fun _ _ _ hu h going => (hu (Nat.le_of_succ_le going)).seq going asserts releases h)
      (fun _ _ _ _ hu h going => (hu going).event h)
      (fun _ => .begun ⟨rfl, rfl, phase, rfl⟩) ht
  rw [steps] at after
  cases after (Nat.le_refl 2) with
  | masked here => exact ⟨t, ht, here⟩

/-- After both writes each bit of the display is `(x | A) & ~D` (42_shift_arbiter.md R187). -/
theorem testBit_afterWrites {w x : Nat} (hx : x < 2 ^ w) (ha : a < 2 ^ w) (i : Nat) :
    (releaseBits w (assertBits w x a) d).testBit i = ((x.testBit i || a.testBit i) && !d.testBit i) := by
  rw [testBit_releaseBits (assertBits_lt ..), testBit_assertBits hx ha]

/-- The step that ends the window clears the confirm flag whatever set it inside (70_reset_and_hazards.md R284 (b)). -/
theorem runTurns_window {ts : List Turn} (inv : s.Inv) (phase : s.phase = dir.assertPhase) (noReset : .reset ∉ ts)
    (steps : seqCount ts = 2) :
    ∃ t, runTurns (ts ++ [.seq]) s = .next t ∧ t.phase = dir.endPhase ∧ dir.confirm t = false ∧
      t.gearIndex = s.gearIndex := by
  obtain ⟨a, asserts, -⟩ := dispAssertAt_some s.cfg inv.gearLow
  obtain ⟨d, releases, -⟩ := dispDeassertAt_some s.cfg inv.gearLow
  obtain ⟨u, hu, here⟩ := runTurns_writes inv phase asserts releases noReset steps
  refine ⟨(dir.setConfirm false u).goto dir.endPhase, ?_, rfl, dir.confirm_setConfirm_goto .., ?_⟩
  · rw [runTurns_append, hu, andThen_next, runTurns, act_seq_eq here.phase, dir.exec_clearPhase]; rfl
  · simp [here.gear]

end Writes

/-! ## What the display shows -/

/-- The four phases of a shift in which the display need not show the digit of the gear (42_shift_arbiter.md R187). -/
def insideShift : Phase → Bool
  | .dau => true
  | .dmu => true
  | .dad => true
  | .dmd => true
  | _ => false

/-- The operations that write the gear or the display. -/
def writesDisplay : Instr → Bool
  | .shup => true
  | .dasu => true
  | .dmku => true
  | .shdn => true
  | .dasd => true
  | .dmkd => true
  | .reset => true
  | _ => false

section Shows

variable {dir : Direction} {m : Nat} {s t : State}

/-- Outside a shift the display shows the digit of the gear. -/
theorem displayShows_outside_iff (outside : insideShift s.phase = false) :
    s.DisplayShows m ↔ s.dispOut ||| m = m ∧ dispAssertAt s.cfg.toConfig s.gearIndex = some s.dispOut := by
  unfold State.DisplayShows
  cases phase : s.phase with
  | dau | dmu | dad | dmd => simp [phase, insideShift] at outside
  | _ => rfl

/-- Before the assert write the display shows the digit of the gear the shift came from. -/
theorem displayShows_assertPhase_iff (phase : s.phase = dir.assertPhase) :
    s.DisplayShows m ↔
      s.dispOut ||| m = m ∧ dispAssertAt s.cfg.toConfig (dir.back s.gearIndex) = some s.dispOut := by
  unfold State.DisplayShows
  rw [phase]
  cases dir <;> rfl

/-- Before the mask write the display shows the digits of both gears. -/
theorem displayShows_maskPhase_iff (phase : s.phase = dir.maskPhase) :
    s.DisplayShows m ↔
      s.dispOut ||| m = m ∧ ∃ old new, dispAssertAt s.cfg.toConfig (dir.back s.gearIndex) = some old ∧
        dispAssertAt s.cfg.toConfig s.gearIndex = some new ∧ s.dispOut = old ||| new := by
  unfold State.DisplayShows
  rw [phase]
  cases dir <;> rfl

theorem insideShift_clearPhase (dir : Direction) : insideShift dir.clearPhase = false := by cases dir <;> rfl
theorem insideShift_stepPhase (dir : Direction) : insideShift dir.stepPhase = false := by cases dir <;> rfl
theorem insideShift_endPhase (dir : Direction) : insideShift dir.endPhase = false := by cases dir <;> rfl

/-- The digit of a gear in range fits the display, with no bit outside `m`, and the entries of the gear are apart. -/
theorem GearTablesComplete.entries {c : LegalConfig} (tables : GearTablesComplete c.toConfig m) {g : Gear}
    (low : 1 ≤ g.toNat) (high : g.toNat ≤ 6) :
    ∃ a d, dispAssertAt c.toConfig g = some a ∧ dispDeassertAt c.toConfig g = some d ∧ a &&& d = 0 ∧ a ||| d = m ∧
      a ||| m = m ∧ a < 2 ^ c.dispW ∧ m < 2 ^ c.dispW := by
  obtain ⟨a, d, asserts, releases, disjoint, complete⟩ := tables g low high
  obtain ⟨a', same, -, aFits⟩ := dispAssertAt_some c low
  cases asserts.symm.trans same
  obtain ⟨d', same, -, dFits⟩ := dispDeassertAt_some c low
  cases releases.symm.trans same
  refine ⟨a, d, asserts, releases, disjoint, complete, ?_, aFits, complete ▸ Nat.or_lt_two_pow aFits dFits⟩
  rw [← complete, ← Nat.or_assoc, Nat.or_self]

theorem exec_keeps_display {i : Instr} (hi : writesDisplay i = false) (h : exec i s = .next t) :
    t.gearIndex = s.gearIndex ∧ t.dispOut = s.dispOut := by
  cases i with
  | shup | shdn | dasu | dasd | dmku | dmkd | reset => cases hi
  | tickc | tach | svpu | svpd | svcu | svcd | nope | est | map | clru | clrd | clr | seg => cases h; exact ⟨rfl, rfl⟩
  | tickf => obtain ⟨-, rfl⟩ | ⟨-, rfl⟩ := execTickf_next h <;> exact ⟨rfl, rfl⟩
  | chks => obtain ⟨-, rfl⟩ | ⟨-, rfl⟩ := execChks_next h <;> exact ⟨rfl, rfl⟩
  | sclr => cases (execSclr_eq s).symm.trans h; exact ⟨rfl, rfl⟩
  | sseg => obtain ⟨-, x, -, rfl⟩ | ⟨-, rfl⟩ := execSseg_next h <;> exact ⟨rfl, rfl⟩
  | chkc => obtain ⟨-, rfl⟩ | ⟨-, rfl⟩ := execChkc_next h <;> exact ⟨rfl, rfl⟩

/-- A step between two states outside a shift that writes neither the gear nor the display keeps what it shows. -/
theorem State.DisplayShows.of_display_eq (hs : s.DisplayShows m) (before : insideShift s.phase = false)
    (after : insideShift t.phase = false) (cfg : t.cfg = s.cfg) (gear : t.gearIndex = s.gearIndex)
    (display : t.dispOut = s.dispOut) : t.DisplayShows m := by
  rw [displayShows_outside_iff before] at hs
  rwa [displayShows_outside_iff after, cfg, gear, display]

/-- A micro-operation that writes neither gear nor display runs outside a shift and leads nowhere inside one. -/
theorem insideShift_of_quiet {p : Phase} (quiet : writesDisplay p.microOp = false) :
    insideShift p = false ∧ ∀ q ∈ successorsOf p, insideShift q = false := by
  cases p with
  | shup | dau | dmu | shdn | dad | dmd => cases quiet
  | _ => decide

/-- The gear step leaves the old digit on the display: in the assert phase it is that of the gear one step back. -/
theorem State.DisplayShows.gearStep (hs : s.DisplayShows m) (phase : s.phase = dir.stepPhase)
    (h : exec dir.stepPhase.microOp s = .next t) : t.DisplayShows m := by
  have outside : insideShift s.phase = false := phase ▸ insideShift_stepPhase dir
  cases allowed : dir.allowed s with
  | true =>
    cases (Direction.exec_stepPhase_allowed allowed).symm.trans h
    rw [displayShows_outside_iff outside] at hs
    rw [displayShows_assertPhase_iff (dir := dir) rfl]
    simpa using hs
  | false =>
    cases (Direction.exec_stepPhase_refused allowed).symm.trans h
    exact hs.of_display_eq outside (insideShift_endPhase dir) (by simp) (by simp) (by simp)

/-- The assert write adds the new digit to the old one. -/
theorem State.DisplayShows.assertWrite (hs : s.DisplayShows m) (tables : GearTablesComplete s.cfg.toConfig m)
    (inv : s.Inv) (phase : s.phase = dir.assertPhase) (h : exec dir.assertPhase.microOp s = .next t) :
    t.DisplayShows m := by
  obtain ⟨a, -, asserts, -, -, -, inM, aFits, mFits⟩ := tables.entries inv.gearLow inv.gearHigh
  obtain ⟨within, old⟩ := (displayShows_assertPhase_iff phase).1 hs
  rw [dir.exec_assertPhase, displayAssert_eq_or asserts (lt_two_pow_of_or_eq within mFits) aFits] at h
  cases h
  rw [displayShows_maskPhase_iff (dir := dir) rfl]
  refine ⟨?_, s.dispOut, a, old, asserts, rfl⟩
  simp only [State.goto_dispOut, State.setDisplay_dispOut]
  rw [Nat.or_assoc, inM, within]

/-- The mask write leaves the new digit alone. -/
theorem State.DisplayShows.maskWrite (hs : s.DisplayShows m) (tables : GearTablesComplete s.cfg.toConfig m)
    (inv : s.Inv) (phase : s.phase = dir.maskPhase) (h : exec dir.maskPhase.microOp s = .next t) :
    t.DisplayShows m := by
  obtain ⟨a, d, asserts, releases, disjoint, complete, inM, -, mFits⟩ := tables.entries inv.gearLow inv.gearHigh
  obtain ⟨within, old, new, -, shown, both⟩ := (displayShows_maskPhase_iff phase).1 hs
  cases asserts.symm.trans shown
  have oldWithin : old ||| m = m := by rw [both, Nat.or_assoc, inM] at within; exact within
  have digit : releaseBits s.cfg.dispW s.dispOut d = a := by
    have fits := lt_two_pow_of_or_eq within mFits
    rw [both] at fits ⊢
    exact releaseBits_or_eq fits disjoint complete oldWithin
  rw [dir.exec_maskPhase, displayMask_eq releases, digit] at h
  cases h
  rw [displayShows_outside_iff (insideShift_clearPhase dir)]
  exact ⟨inM, asserts⟩

/-- The reset display is the digit of the reset gear: the two writes on an empty display (10_state.md R50). -/
theorem resetOf_displayShows {c : LegalConfig} (tables : GearTablesComplete c.toConfig m) :
    (State.resetOf c).DisplayShows m := by
  obtain ⟨low, high⟩ := c.gearReset_range
  obtain ⟨a, d, asserts, releases, disjoint, complete, inM, aFits, -⟩ := tables.entries low high
  have digit : resetDisplay c.toConfig = a := by
    rw [resetDisplay, asserts, releases]
    simp only [assertBits_eq (Nat.two_pow_pos _) aFits]
    exact releaseBits_or_eq (by rwa [Nat.zero_or]) disjoint complete (Nat.zero_or m)
  rw [displayShows_outside_iff rfl]
  simp only [State.resetOf, digit]
  exact ⟨inM, asserts⟩

/-- A micro-operation writes neither gear nor display, or it is one of the three of a direction that do. -/
theorem exec_microOp_keeps_displayShows {p : Phase} (tables : GearTablesComplete s.cfg.toConfig m) (inv : s.Inv)
    (hs : s.DisplayShows m) (phase : s.phase = p) (h : exec p.microOp s = .next t) : t.DisplayShows m := by
  have quietStep (quiet : writesDisplay p.microOp = false) : t.DisplayShows m := by
    obtain ⟨before, after⟩ := insideShift_of_quiet quiet
    obtain ⟨gear, display⟩ := exec_keeps_display quiet h
    exact hs.of_display_eq (phase ▸ before) (after _ (exec_microOp_phase phase h)) (exec_keeps_cfg _ h) gear display
  cases p with
  | shup => exact hs.gearStep (dir := .up) phase h
  | shdn => exact hs.gearStep (dir := .dn) phase h
  | dau => exact hs.assertWrite (dir := .up) tables inv phase h
  | dad => exact hs.assertWrite (dir := .dn) tables inv phase h
  | dmu => exact hs.maskWrite (dir := .up) tables inv phase h
  | dmd => exact hs.maskWrite (dir := .dn) tables inv phase h
  | chks | est | map | clr | seg | chkc | clu | cld => exact quietStep rfl

/-- Every turn keeps what the display shows (42_shift_arbiter.md R187). -/
theorem act_keeps_displayShows {turn : Turn} (tables : GearTablesComplete s.cfg.toConfig m) (inv : s.Inv)
    (hs : s.DisplayShows m) (h : act turn s = .next t) : t.DisplayShows m := by
  cases turn with
  | event w => rw [act_event_frame h]; exact hs
  | seq => exact exec_microOp_keeps_displayShows tables inv hs rfl h
  | reset => cases h; exact resetOf_displayShows tables

end Shows

/-! ## The orders of the shift step -/

/-- When the sequencer moves alone from `s`, it runs the operations of the list in order and is then at `t`. -/
inductive RunsOps : State → List Instr → State → Prop
  | nil (s : State) : RunsOps s [] s
  | cons {s t u : State} {is : List Instr} (h : act .seq s = .next t) (rest : RunsOps t is u) :
      RunsOps s (s.phase.microOp :: is) u

namespace Direction

/-- The operations of a direction whose guard holds (42_shift_arbiter.md R196). -/
def fullOps (dir : Direction) : List Instr :=
  [dir.stepPhase.microOp, dir.assertPhase.microOp, dir.maskPhase.microOp, dir.clearPhase.microOp]

/-- The state a direction leaves when its guard holds, with the display it has written. -/
def shifted (dir : Direction) (display : Nat) (s : State) : State :=
  (dir.setConfirm false ({ s with gearIndex := dir.move s.gearIndex }.setDisplay display)).goto dir.endPhase

/-- The state a direction leaves when its guard fails (42_shift_arbiter.md R180, R188). -/
def refused (dir : Direction) (s : State) : State :=
  (dir.setConfirm (confirmAtBound s.cfg.toConfig (dir.confirm s)) s).goto dir.endPhase

end Direction

section Orders

variable {dir : Direction} {s t u : State} {is js : List Instr}

theorem RunsOps.trans (first : RunsOps s is t) (second : RunsOps t js u) : RunsOps s (is ++ js) u := by
  induction first with
  | nil => exact second
  | cons h _ ih => exact .cons h (ih second)

theorem RunsOps.one {p : Phase} (phase : s.phase = p) (h : exec p.microOp s = .next t) : RunsOps s [p.microOp] t := by
  subst phase
  exact .cons h (.nil t)

theorem RunsOps.keeps_inv (h : RunsOps s is t) (inv : s.Inv) : t.Inv := by
  induction h with
  | nil => exact inv
  | cons h _ ih => exact ih (act_keeps_inv inv h)

/-- The operations that lead to `P_CHKS`, and the `CHKS` that comes next. -/
theorem RunsOps.opsFrom_chks (h : RunsOps s is t) (chks : t.phase = .chks) :
    opsFrom (is.length + 1) s = is ++ [.chks] := by
  induction h with
  | nil s => rw [List.length_nil, Nat.zero_add, opsFrom_one, chks]; rfl
  | cons h _ ih => rw [List.length_cons, opsFrom_succ _ h, ih chks]; rfl

/-- Once the gear is stepped, a direction writes the display twice and clears its flag. -/
theorem runsOps_writes (inv : s.Inv) (phase : s.phase = dir.assertPhase) :
    ∃ display, RunsOps s [dir.assertPhase.microOp, dir.maskPhase.microOp, dir.clearPhase.microOp]
      ((dir.setConfirm false (s.setDisplay display)).goto dir.endPhase) := by
  obtain ⟨a, asserts, -⟩ := dispAssertAt_some s.cfg inv.gearLow
  obtain ⟨d, releases, -⟩ := dispDeassertAt_some s.cfg inv.gearLow
  have assertWrite := (dir.exec_assertPhase s).trans (displayAssert_eq asserts dir.maskPhase)
  generalize assertBits s.cfg.dispW s.dispOut a = both at assertWrite
  have maskWrite := (dir.exec_maskPhase _).trans
    (displayMask_eq (s := (s.setDisplay both).goto dir.maskPhase) releases dir.clearPhase)
  generalize releaseBits _ _ d = digit at maskWrite
  refine ⟨digit, (RunsOps.one phase assertWrite).trans <| (RunsOps.one (State.goto_phase ..) maskWrite).trans <|
    RunsOps.one (State.goto_phase ..) ?_⟩
  rw [dir.exec_clearPhase, State.setDisplay_goto, State.setDisplay_setDisplay, State.goto_goto,
    Direction.setConfirm_goto, State.goto_goto]

/-- With its guard a direction runs all its operations. -/
theorem runsOps_shifted (inv : s.Inv) (phase : s.phase = dir.stepPhase) (allowed : dir.allowed s = true) :
    ∃ display, RunsOps s dir.fullOps (dir.shifted display s) := by
  have step := RunsOps.one phase (Direction.exec_stepPhase_allowed allowed)
  obtain ⟨display, writes⟩ := runsOps_writes (dir := dir) (step.keeps_inv inv) rfl
  rw [State.setDisplay_goto, Direction.setConfirm_goto, State.goto_goto] at writes
  exact ⟨display, step.trans writes⟩

/-- Without its guard a direction is one operation. -/
theorem runsOps_refused (phase : s.phase = dir.stepPhase) (refused : dir.allowed s = false) :
    RunsOps s [dir.stepPhase.microOp] (dir.refused s) :=
  .one phase (Direction.exec_stepPhase_refused refused)

/-- The up direction with its guard leads to `P_SHDN`, one gear up. -/
theorem runsOps_up (inv : s.Inv) (phase : s.phase = .shup) (confirmed : s.confirmUp = true)
    (below : s.gearIndex.toNat < 6) :
    ∃ t, RunsOps s [.shup, .dasu, .dmku, .clru] t ∧ t.phase = .shdn ∧ t.confirmDn = s.confirmDn ∧
      t.gearIndex.toNat = s.gearIndex.toNat + 1 := by
  have allowed := upAllowed_iff.2 ⟨confirmed, below⟩
  obtain ⟨-, -, gear⟩ := gear_of_upAllowed allowed
  obtain ⟨display, ops⟩ := runsOps_shifted (dir := .up) inv phase allowed
  exact ⟨_, ops, rfl, rfl, gear⟩

/-- Without its guard the up direction leads to `P_SHDN` at once, in the same gear. -/
theorem runsOps_up_refused (phase : s.phase = .shup) (refused : ¬(s.confirmUp = true ∧ s.gearIndex.toNat < 6)) :
    ∃ t, RunsOps s [.shup] t ∧ t.phase = .shdn ∧ t.confirmDn = s.confirmDn ∧ t.gearIndex = s.gearIndex :=
  ⟨_, runsOps_refused (dir := .up) phase (Bool.eq_false_iff.2 (mt upAllowed_iff.1 refused)), rfl, rfl, rfl⟩

/-- The down direction with its guard ends the iteration. -/
theorem runsOps_dn (inv : s.Inv) (phase : s.phase = .shdn) (confirmed : s.confirmDn = true)
    (above : 1 < s.gearIndex.toNat) : ∃ t, RunsOps s [.shdn, .dasd, .dmkd, .clrd] t ∧ t.phase = .chks := by
  obtain ⟨display, ops⟩ := runsOps_shifted (dir := .dn) inv phase (downAllowed_iff.2 ⟨confirmed, above⟩)
  exact ⟨_, ops, rfl⟩

/-- Without its guard the down direction ends the iteration at once. -/
theorem runsOps_dn_refused (phase : s.phase = .shdn) (refused : ¬(s.confirmDn = true ∧ 1 < s.gearIndex.toNat)) :
    ∃ t, RunsOps s [.shdn] t ∧ t.phase = .chks :=
  ⟨_, runsOps_refused (dir := .dn) phase (Bool.eq_false_iff.2 (mt downAllowed_iff.1 refused)), rfl⟩

end Orders

/-! ## The obligations -/

/-- Settles O21: a step is a turn on a state with the same registers; an event writes none of them, and of the
micro-operations only the gear step and the two display writes of a direction do. -/
theorem displayShowsGearKeptByStep : Obligations.DisplayShowsGearKeptByStep := by
  intro m s t tables inv shows h
  rw [step_eq_act] at h
  have inv : (s.dropTurns 1).Inv := { inv with }
  have shows : (s.dropTurns 1).DisplayShows m := shows
  exact act_keeps_displayShows (s := s.dropTurns 1) tables inv shows h

/-- Settles O48: every operation keeps the invariants, and so does the turn that a step is. -/
theorem invariantsKeptByStep : Obligations.InvariantsKeptByStep := by
  intro s t inv h
  rw [step_eq_act] at h
  have inv : (s.dropTurns 1).Inv := { inv with }
  exact act_keeps_inv inv h

/-- Settles O20: both writes are done after two sequencer steps, whatever events fall between, and are read bit by
bit. -/
theorem assertThenMaskShowsDigit : Obligations.AssertThenMaskShowsDigit := by
  intro s ts a d inv widths phase assertEntry deassertEntry noReset steps
  obtain ⟨dir, phase⟩ : ∃ dir : Direction, s.phase = dir.assertPhase :=
    phase.elim (fun up => ⟨.up, up⟩) (fun dn => ⟨.dn, dn⟩)
  obtain ⟨asserts, aFits⟩ := dispAssertAt_of_getElem? inv.gearLow assertEntry
  obtain ⟨releases, -⟩ := dispDeassertAt_of_getElem? inv.gearLow deassertEntry
  obtain ⟨t, ht, here⟩ := runTurns_writes inv phase asserts releases noReset steps
  have bits (i : Nat) : t.dispOut.testBit i = ((s.dispOut.testBit i || a.testBit i) && !d.testBit i) := by
    rw [here.display, testBit_afterWrites widths.displayFits aFits]
  exact ⟨t, ht, here.gear, bits, fun disjoint => shown_of_disjoint disjoint bits⟩

/-- Settles O22: after `CHKC` each direction is its full list of operations or its gear step alone, as its guard has
it; the up direction leaves the guard of the down one as it was, but for a gear one higher. -/
theorem shiftStepOrders : Obligations.ShiftStepOrders := by
  intro s inv chkc
  have enter (confirmed : s.confirmUp = true ∨ s.confirmDn = true) : RunsOps s [.chkc] (s.goto .shup) :=
    .one chkc (exec_chkc_confirmed confirmed)
  have inv := inv.goto .shup
  refine ⟨fun confirmed noUp noDn => ?_, fun up below noDn => ?_, fun noUp dn above => ?_, fun up below dn => ?_⟩
  · obtain ⟨t, upOps, shdn, flag, gear⟩ := runsOps_up_refused (s := s.goto .shup) rfl noUp
    rw [State.goto_confirmDn] at flag
    obtain ⟨u, dnOps, chks⟩ := runsOps_dn_refused shdn (by rwa [flag, gear])
    exact ((enter confirmed).trans (upOps.trans dnOps)).opsFrom_chks chks
  · obtain ⟨t, upOps, shdn, flag, -⟩ := runsOps_up inv rfl up below
    obtain ⟨u, dnOps, chks⟩ := runsOps_dn_refused shdn (by simp [flag, noDn])
    exact ((enter (.inl up)).trans (upOps.trans dnOps)).opsFrom_chks chks
  · obtain ⟨t, upOps, shdn, flag, gear⟩ := runsOps_up_refused (s := s.goto .shup) rfl noUp
    obtain ⟨u, dnOps, chks⟩ := runsOps_dn (upOps.keeps_inv inv) shdn (flag.trans dn) (by rwa [gear])
    exact ((enter (.inr dn)).trans (upOps.trans dnOps)).opsFrom_chks chks
  · obtain ⟨t, upOps, shdn, flag, gear⟩ := runsOps_up inv rfl up below
    have above : 1 < t.gearIndex.toNat := by have := inv.gearLow; omega
    obtain ⟨u, dnOps, chks⟩ := runsOps_dn (upOps.keeps_inv inv) shdn (flag.trans dn) above
    exact ((enter (.inl up)).trans (upOps.trans dnOps)).opsFrom_chks chks

/-- Settles O23: the two display writes lead to the phase that clears the flag, and the step after them clears it. -/
theorem confirmInsideWindowIsAbsorbed : Obligations.ConfirmInsideWindowIsAbsorbed :=
  fun _ _ inv noReset steps =>
    ⟨fun up => runTurns_window (dir := .up) inv up noReset steps,
      fun dn => runTurns_window (dir := .dn) inv dn noReset steps⟩

/-- Settles O25: a turn releases a relay only by `RESET` or by an edge of the direction's releasing list. -/
theorem relayStaysDriven : Obligations.RelayStaysDriven := by
  intro s t turn h noReset
  constructor
  · intro driven holds
    refine act_keeps_relay (dir := .up) noReset (fun w event => ?_) driven h
    obtain ⟨noPaddle, noUp, noDn⟩ := holds w event
    simp [Direction.releasing, noPaddle, noUp, noDn]
  · intro driven holds
    refine act_keeps_relay (dir := .dn) noReset (fun w event => ?_) driven h
    obtain ⟨noPaddle, noUp, noDn⟩ := holds w event
    simp [Direction.releasing, noPaddle, noUp, noDn]

/-- Settles O12: the paddle bits of every word, and the two relays with their mirrors written out. -/
theorem paddleEdgesDriveOneRelay : Obligations.PaddleEdgesDriveOneRelay :=
  ⟨by decide, by decide, fun _ => ⟨rfl, rfl⟩⟩

/-- Settles O13: the confirm bits of every word below those that win over them, and the two operations written out. -/
theorem confirmEdgesReleaseRelays : Obligations.ConfirmEdgesReleaseRelays :=
  ⟨by decide, by decide, fun _ => ⟨rfl, rfl⟩⟩

/-- Settles O14: the two branches of `CHKC`. -/
theorem chkcEntersShiftStepOnConfirm : Obligations.ChkcEntersShiftStepOnConfirm :=
  ⟨rfl, fun _ => ⟨exec_chkc_confirmed, exec_chkc_none⟩⟩

/-- Settles O15: the gear step of the up direction with and without its guard. -/
theorem shupStepsGearUpUnderGuard : Obligations.ShupStepsGearUpUnderGuard := by
  refine ⟨rfl, fun s => ⟨fun confirmed below => ?_, fun no => ?_⟩⟩
  · have allowed := upAllowed_iff.2 ⟨confirmed, below⟩
    obtain ⟨-, -, gear⟩ := gear_of_upAllowed allowed
    exact ⟨s.gearIndex + 1, Direction.exec_stepPhase_allowed (dir := .up) allowed, gear⟩
  · rw [← confirmAtBound_eq]
    exact Direction.exec_stepPhase_refused (dir := .up) (Bool.eq_false_iff.2 (mt upAllowed_iff.1 no))

/-- Settles O16: the gear step of the down direction with and without its guard. -/
theorem shdnStepsGearDownUnderGuard : Obligations.ShdnStepsGearDownUnderGuard := by
  refine ⟨rfl, fun s => ⟨fun confirmed above => ?_, fun no => ?_⟩⟩
  · have allowed := downAllowed_iff.2 ⟨confirmed, above⟩
    obtain ⟨-, -, gear⟩ := gear_of_downAllowed allowed
    exact ⟨s.gearIndex - 1, Direction.exec_stepPhase_allowed (dir := .dn) allowed, gear⟩
  · rw [← confirmAtBound_eq]
    exact Direction.exec_stepPhase_refused (dir := .dn) (Bool.eq_false_iff.2 (mt downAllowed_iff.1 no))

/-- Settles O17: a gear of at least 1 has an assert entry, of the display's width. -/
theorem displayAssertOrsTableEntry : Obligations.DisplayAssertOrsTableEntry := by
  refine ⟨rfl, rfl, fun s low display => ?_⟩
  obtain ⟨a, asserts, entry, fits⟩ := dispAssertAt_some s.cfg low
  exact ⟨a, entry, displayAssert_eq_or asserts display fits .dmu, displayAssert_eq_or asserts display fits .dmd⟩

/-- Settles O18: a gear of at least 1 has a de-assert entry, of the display's width. -/
theorem displayMaskReleasesTableEntry : Obligations.DisplayMaskReleasesTableEntry := by
  refine ⟨rfl, rfl, fun s low display => ?_⟩
  obtain ⟨d, releases, entry, fits⟩ := dispDeassertAt_some s.cfg low
  exact ⟨d, entry, displayMask_eq_and releases display fits .clu, displayMask_eq_and releases display fits .cld⟩

/-- Settles O19: the last operation of each direction. -/
theorem clearConfirmEndsDirection : Obligations.ClearConfirmEndsDirection :=
  ⟨rfl, rfl, fun s => ⟨Direction.exec_clearPhase .up s, Direction.exec_clearPhase .dn s⟩⟩

end Sys2Proof.Machine

/-! # Proofs: the strip sequencer

The layers, in order: what the two strip commands and the two micro-operations that emit them leave; the count of `SEG`
words since the last `CLR`, one word at a time; what that count is along an execution. The obligations are settled at
the end. -/

namespace Sys2Proof.Machine

/-! ## The strip commands -/

/-- The strip command of a command's word is the row the command is (30_encoding.md R111, R112). -/
theorem decodeStrip_word (cmd : StripCommand) : decodeStrip cmd.word = .ok cmd.instr := by
  rw [decodeStrip, parseStrip_word]; rfl

section Write

variable {total : Nat} {v : StripView}

theorem StripView.write_inside (inside : v.ptr < total) (x : SegmentValue) :
    v.write total x = ⟨v.image.set v.ptr (some x), v.ptr + 1⟩ := if_pos inside

theorem StripView.write_full (full : v.ptr = total) (x : SegmentValue) : v.write total x = v :=
  if_neg (by omega)

end Write

/-- `SEG` draws on the strip and does nothing else (43_strip_sequencer.md R212). -/
theorem exec_seg (s : State) (l r g b : Byte) :
    exec (.seg l r g b) s = .next (s.setStrip (s.strip.write s.cfg.total ⟨l, r, g, b⟩)) := rfl

/-! ## The micro-operations that emit -/

section Emit

variable {s : State}

/-- `SSEG` below `SegEnd` emits the pass's word for the segment, where the strip has that segment
(43_strip_sequencer.md R202, R204). -/
theorem exec_sseg_below (below : s.segIdx < s.segEnd) (inside : s.segIdx < s.cfg.total) :
    exec .sseg s = .next { s with
      segIdx := s.segIdx + 1
      stripOut := s.stripOut ++ [passWord s.cfg.toConfig s.redline s.segIdx]
      strip := s.strip.write s.cfg.total (passValue s.cfg.toConfig s.redline s.segIdx) } := by
  rw [exec, execSseg, if_pos below, payloadColor_eq_passColor _ _ inside, withEntry, emit_seg, andThen_next]
  rfl

/-- `SSEG` at `SegEnd` closes the pass and emits nothing (43_strip_sequencer.md R202). -/
theorem exec_sseg_done (done : ¬s.segIdx < s.segEnd) : exec .sseg s = .next (s.goto .chkc) := if_neg done

end Emit

/-! ## Counting the words since the last `CLR` -/

section Count

variable (total : Nat) (n : Option Nat)

/-- The count is taken word by word. -/
theorem segsSinceClear_cons (w : StripWord) (rest : List StripWord) :
    segsSinceClear total n (w :: rest) = (segsSinceClear total n [w]).bind (segsSinceClear total · rest) := by
  simp only [segsSinceClear]
  cases parseStrip w with
  | error _ => rfl
  | ok cmd =>
    cases cmd with
    | clr => rfl
    | seg =>
      cases n with
      | none => rfl
      | some k => dsimp only; split <;> rfl

/-- The count goes on over later words from where the earlier ones left it. -/
theorem segsSinceClear_append (out rest : List StripWord) :
    segsSinceClear total n (out ++ rest) = (segsSinceClear total n out).bind (segsSinceClear total · rest) := by
  induction out generalizing n with
  | nil => rfl
  | cons w out ih =>
    rw [List.cons_append, segsSinceClear_cons, segsSinceClear_cons _ _ w out, Option.bind_assoc]
    simp only [ih]

theorem segsSinceClear_clr : segsSinceClear total n [StripCommand.word .clr] = some (some 0) := by
  simp [segsSinceClear]

theorem segsSinceClear_seg {k : Nat} (below : k < total) (l r g b : Byte) :
    segsSinceClear total (some k) [StripCommand.word (.seg l r g b)] = some (some (k + 1)) := by
  simp [segsSinceClear, below]

end Count

/-- The `SEG` words emitted since the last `CLR`, counted as `StripShape` counts them. -/
def State.segsOut (s : State) : Option (Option Nat) := segsSinceClear s.cfg.total none s.stripOut

theorem stripShape_iff {s : State} : s.StripShape ↔ ∃ n, s.segsOut = some n := Option.isSome_iff_exists

/-! ## The count along an execution -/

/-- `StripOut` is well shaped, and inside a pass `SegIdx` bounds the `SEG` words since its `CLR`
(43_strip_sequencer.md R204). -/
structure State.InPasses (s : State) : Prop where
  inv : s.Inv
  shape : s.StripShape
  opened : s.phase = .seg → ∃ k, k ≤ s.segIdx ∧ s.segsOut = some (some k)

section Passes

variable {s t : State}

theorem State.segsOut_congr (cfg : t.cfg = s.cfg) (out : t.stripOut = s.stripOut) : t.segsOut = s.segsOut := by
  rw [State.segsOut, cfg, out, State.segsOut]

theorem State.StripShape.congr (hs : s.StripShape) (cfg : t.cfg = s.cfg) (out : t.stripOut = s.stripOut) :
    t.StripShape := by
  rw [State.StripShape, cfg, out]; exact hs

/-- Emitting `CLR` starts a new count, whatever came before. -/
theorem segsOut_of_clr (hs : s.StripShape) (cfg : t.cfg = s.cfg)
    (out : t.stripOut = s.stripOut ++ [StripCommand.word .clr]) : t.segsOut = some (some 0) := by
  obtain ⟨n, count⟩ := stripShape_iff.1 hs
  rw [State.segsOut] at count
  rw [State.segsOut, cfg, out, segsSinceClear_append, count, Option.bind_some, segsSinceClear_clr]

/-- Emitting `SEG` counts one more while the strip has room. -/
theorem segsOut_of_seg {k : Nat} {l r g b : Byte} (count : s.segsOut = some (some k)) (room : k < s.cfg.total)
    (cfg : t.cfg = s.cfg) (out : t.stripOut = s.stripOut ++ [StripCommand.word (.seg l r g b)]) :
    t.segsOut = some (some (k + 1)) := by
  rw [State.segsOut] at count
  rw [State.segsOut, cfg, out, segsSinceClear_append, count, Option.bind_some, segsSinceClear_seg _ room]

/-- No micro-operation but `SCLR` and `SSEG` emits (43_strip_sequencer.md R204). -/
theorem exec_microOp_keeps_stripOut {p : Phase} (notClr : p ≠ .clr) (notSeg : p ≠ .seg)
    (h : exec p.microOp s = .next t) : t.stripOut = s.stripOut := by
  cases p with
  | clr => exact absurd rfl notClr
  | seg => exact absurd rfl notSeg
  | map => cases h; rfl
  | _ =>
    obtain ⟨-, -, -, -, out, -⟩ := picture_eq_iff.1 (exec_keeps_picture rfl h)
    exact out

/-- `P_SEG` is entered by `SCLR` only, so a pass always starts with a `CLR` (10_state.md R41). -/
theorem seg_mem_successorsOf {p : Phase} (succ : .seg ∈ successorsOf p) : p = .clr ∨ p = .seg := by
  cases p <;> simp [successorsOf] at succ ⊢

theorem resetOf_inPasses (c : LegalConfig) : (State.resetOf c).InPasses where
  inv := resetOf_inv c
  shape := rfl
  opened phase := nomatch phase

theorem State.InPasses.of_count {k : Nat} (inv : s.Inv) (count : s.segsOut = some (some k)) (atMost : k ≤ s.segIdx) :
    s.InPasses :=
  ⟨inv, stripShape_iff.2 ⟨_, count⟩, fun _ => ⟨k, atMost, count⟩⟩

/-- `SCLR` opens a pass with no `SEG` word yet. -/
theorem State.InPasses.sclr (hs : s.InPasses) (inv : t.Inv) (h : execSclr s = .next t) : t.InPasses := by
  cases (execSclr_eq s).symm.trans h
  exact .of_count inv (segsOut_of_clr hs.shape rfl rfl) (Nat.zero_le _)

/-- `SSEG` emits at a `SegIdx` below `SegEnd`, so below `TOTAL`, and counts both on. -/
theorem State.InPasses.sseg (hs : s.InPasses) (phase : s.phase = .seg) (inv : t.Inv) (h : execSseg s = .next t) :
    t.InPasses := by
  obtain ⟨below, x, -, rfl⟩ | ⟨-, rfl⟩ := execSseg_next h
  · obtain ⟨k, atMost, count⟩ := hs.opened phase
    have room : k < s.cfg.total := (atMost.trans_lt below).trans_le hs.inv.planInStrip
    exact .of_count inv (segsOut_of_seg count room rfl rfl) (Nat.succ_le_succ atMost)
  · exact ⟨inv, hs.shape, fun phase => nomatch phase⟩

/-- A sequencer step of any other phase neither emits nor enters a pass. -/
theorem State.InPasses.seq (hs : s.InPasses) (h : act .seq s = .next t) : t.InPasses := by
  have inv := act_keeps_inv hs.inv h
  by_cases clr : s.phase = .clr
  · exact hs.sclr inv ((act_seq_eq clr).symm.trans h)
  by_cases seg : s.phase = .seg
  · exact hs.sseg seg inv ((act_seq_eq seg).symm.trans h)
  have outside : t.phase ≠ .seg := fun entered =>
    (seg_mem_successorsOf (entered ▸ act_seq_phase h)).elim clr seg
  exact ⟨inv, hs.shape.congr (act_keeps_cfg h) (exec_microOp_keeps_stripOut clr seg h), (absurd · outside)⟩

/-- Events neither emit nor move the pass (43_strip_sequencer.md R206). -/
theorem State.InPasses.event {w : EventWord} (hs : s.InPasses) (h : act (.event w) s = .next t) : t.InPasses := by
  have frame := act_event_frame h
  refine ⟨act_keeps_inv hs.inv h, hs.shape.congr frame.cfg frame.stripOut, fun phase => ?_⟩
  rw [frame.segIdx, State.segsOut_congr frame.cfg frame.stripOut]
  exact hs.opened (frame.phase.symm.trans phase)

theorem State.InPasses.turn {turn : Turn} (hs : s.InPasses) (h : act turn s = .next t) : t.InPasses := by
  cases turn with
  | event w => exact hs.event h
  | seq => exact hs.seq h
  | reset => cases h; exact { resetOf_inPasses s.cfg with inv := act_keeps_inv (turn := .reset) hs.inv rfl }

end Passes

/-! ## The obligations -/

/-- Settles O30: the run of a planned pass, with what it has drawn written out. -/
theorem passIssuesItsPlan : Obligations.PassIssuesItsPlan := by
  intro s ts inv clr idx noReset steps
  obtain ⟨t, ht, phase, drawn⟩ := runTurns_pass inv clr idx noReset steps
  exact ⟨t, ht, phase, drawn.out, drawn.strip, drawn.idx, drawn.plan⟩

/-- Settles O33, by induction over the turns: inside a pass `SegIdx` bounds the `SEG` words since the `CLR`, and `SSEG`
emits below `TOTAL` only. -/
theorem stripOutIsARunOfPasses : Obligations.StripOutIsARunOfPasses := by
  intro c ts
  obtain ⟨t, ht⟩ := runTurns_completes ts (resetOf_inv c)
  have passes : t.InPasses := runTurns_keeps (fun _ _ _ _ hs h => hs.turn h) (resetOf_inPasses c) ht
  exact ⟨t, ht, passes.shape⟩

/-- Settles O26: the words of the two commands, and what each draws. -/
theorem stripCommandsDrawOnStrip : Obligations.StripCommandsDrawOnStrip := by
  refine ⟨decodeStrip_word .clr, fun l r g b => decodeStrip_word (.seg l r g b), fun s l r g b =>
    ⟨rfl, fun inside length => ?_, fun full => ?_⟩⟩
  · refine ⟨s.strip.image.set s.strip.ptr (some ⟨l, r, g, b⟩), ?_, ?_, fun k other => ?_⟩
    · rw [exec_seg, StripView.write_inside inside]; rfl
    · exact List.getElem?_set_self (length ▸ inside)
    · exact List.getElem?_set_ne other.symm
  · rw [exec_seg, StripView.write_full full]; rfl

/-- Settles O27: the one emission of `SCLR` and the phase after it. -/
theorem sclrEmitsOneClear : Obligations.SclrEmitsOneClear := by
  refine ⟨rfl, fun s => ?_⟩
  rw [exec, execSclr_eq, clr_word_eq_zero]
  rfl

/-- Settles O28: the two branches of `SSEG`; the segment's colour is the pass's, and below `SegEnd` the strip has the
segment. -/
theorem ssegCommandsNextSegment : Obligations.SsegCommandsNextSegment := by
  refine ⟨rfl, fun s fits => ⟨fun below => ?_, exec_sseg_done⟩⟩
  exact ⟨passColor s.cfg.toConfig s.redline s.segIdx, _, rfl, exec_seg .., exec_sseg_below below (below.trans_le fits)⟩

end Sys2Proof.Machine

/-! # Proofs: fair executions

The layers, in order: what holds all along an infinite execution; the one induction that fairness gives, from a place to
the next sequencer step where something is done; the capture that waits for `CHKS` and the render that follows; the
confirm flag that waits for its direction. The obligation is settled at the end. -/

namespace Sys2Proof.Machine

/-! ## Along an infinite execution -/

section Execution

variable {c : LegalConfig} {τ : Nat → Turn} {σ : Nat → State} {n m : Nat}

/-- What holds at reset and every turn keeps holds in every state of an execution. -/
theorem IsInfiniteExecution.holds {P : State → Prop} (run : IsInfiniteExecution c τ σ) (start : P (State.resetOf c))
    (keeps : ∀ turn s t, P s → act turn s = .next t → P t) (n : Nat) : P (σ n) := by
  obtain ⟨reset, follows⟩ := run
  exact runTurns_keeps (fun turn _ => keeps turn) (reset ▸ start) (follows.runTurns n)

theorem IsInfiniteExecution.inv (run : IsInfiniteExecution c τ σ) (n : Nat) : (σ n).Inv :=
  run.holds (resetOf_inv c) (fun _ _ _ => act_keeps_inv) n

theorem IsInfiniteExecution.cfg (run : IsInfiniteExecution c τ σ) (n : Nat) : (σ n).cfg = c :=
  run.holds (P := fun s => s.cfg = c) rfl (fun _ _ _ hs h => (act_keeps_cfg h).trans hs) n

theorem IsInfiniteExecution.planAgrees (run : IsInfiniteExecution c τ σ) (n : Nat) : (σ n).PlanAgrees :=
  run.holds (resetOf_planAgrees c) (fun _ _ _ => act_keeps_planAgrees) n

theorem IsInfiniteExecution.displayShows (run : IsInfiniteExecution c τ σ) {bits : Nat}
    (tables : GearTablesComplete c.toConfig bits) (n : Nat) : (σ n).DisplayShows bits := by
  induction n with
  | zero => rw [run.1]; exact resetOf_displayShows tables
  | succ n ih => exact act_keeps_displayShows (by rwa [run.cfg n]) (run.inv n) ih (run.2 n)

/-- What every event keeps holds on as long as only events come. -/
theorem FollowsTurns.events_keep {P : State → Prop} (follows : FollowsTurns τ σ)
    (keeps : ∀ w s t, P s → act (.event w) s = .next t → P t) (start : P (σ n)) (le : n ≤ m)
    (events : ∀ j, n ≤ j → j < m → ∃ w, τ j = .event w) : P (σ m) := by
  induction m, le using Nat.le_induction with
  | base => exact start
  | succ m le ih =>
    obtain ⟨w, turn⟩ := events m le (Nat.lt_succ_self m)
    have h := follows m
    rw [turn] at h
    exact keeps w _ _ (ih fun j low high => events j low (Nat.lt_succ_of_lt high)) h

/-- As long as only events come, nothing is written but the elements of their context (10_state.md R45). -/
theorem FollowsTurns.eventFrame (follows : FollowsTurns τ σ) (le : n ≤ m)
    (events : ∀ j, n ≤ j → j < m → ∃ w, τ j = .event w) : EventFrame (σ n) (σ m) :=
  follows.events_keep (P := EventFrame (σ n)) (fun _ _ _ frame h => frame.trans (act_event_frame h)) (.refl _) le events

theorem exists_event_of_ne {turn : Turn} (notSeq : turn ≠ .seq) (notReset : turn ≠ .reset) : ∃ w, turn = .event w := by
  cases turn with
  | event w => exact ⟨w, rfl⟩
  | seq => exact absurd rfl notSeq
  | reset => exact absurd rfl notReset

end Execution

/-! ## What fairness gives -/

section Fairness

variable {τ : Nat → Turn} {σ : Nat → State} {n : Nat}

/-- From any place on a sequencer step comes, and only events before it. -/
theorem Fair.exists_next_seq (fair : Fair τ) (noReset : ∀ m, n ≤ m → τ m ≠ .reset) :
    ∃ m, n ≤ m ∧ τ m = .seq ∧ ∀ j, n ≤ j → j < m → ∃ w, τ j = .event w := by
  classical
  obtain ⟨le, seq⟩ := Nat.find_spec (fair n)
  exact ⟨Nat.find (fair n), le, seq, fun j low high =>
    exists_event_of_ne (fun hj => Nat.find_min (fair n) high ⟨low, hj⟩) (noReset j low)⟩

/-- The next sequencer step finds the state as it was, but for the elements of the event context. -/
theorem Fair.exists_next_seq_frame (fair : Fair τ) (follows : FollowsTurns τ σ)
    (noReset : ∀ m, n ≤ m → τ m ≠ .reset) : ∃ m, n ≤ m ∧ τ m = .seq ∧ EventFrame (σ n) (σ m) := by
  obtain ⟨m, le, seq, events⟩ := fair.exists_next_seq noReset
  exact ⟨m, le, seq, follows.eventFrame le events⟩

/-- The one induction of a fair execution, over a measure of the states: while `P` holds, no event changes the measure
and every sequencer step that is not yet the one looked for lowers it. So a sequencer step comes that is, with `P` up to
it. -/
theorem Fair.reaches {P D : State → Prop} {μ : State → Nat} (fair : Fair τ) (follows : FollowsTurns τ σ)
    (noReset : ∀ m, n ≤ m → τ m ≠ .reset)
    (event : ∀ w s t, P s → act (.event w) s = .next t → P t ∧ μ t = μ s)
    (seq : ∀ s t, P s → ¬D s → act .seq s = .next t → P t ∧ μ t < μ s) (start : P (σ n)) :
    ∃ m, n ≤ m ∧ (∀ j, n ≤ j → j ≤ m → P (σ j)) ∧ τ m = .seq ∧ D (σ m) := by
  induction measure : μ (σ n) using Nat.strong_induction_on generalizing n with
  | _ k ih =>
    subst measure
    obtain ⟨m, le, turn, events⟩ := fair.exists_next_seq noReset
    have kept (j : Nat) (low : n ≤ j) (high : j ≤ m) : P (σ j) ∧ μ (σ j) = μ (σ n) :=
      follows.events_keep (P := fun s => P s ∧ μ s = μ (σ n))
        (fun w s t hs h => ⟨(event w s t hs.1 h).1, (event w s t hs.1 h).2.trans hs.2⟩) ⟨start, rfl⟩ low
        fun i low below => events i low (below.trans_le high)
    obtain ⟨here, same⟩ := kept m le (Nat.le_refl m)
    by_cases done : D (σ m)
    · exact ⟨m, le, fun j low high => (kept j low high).1, turn, done⟩
    have h := follows m
    rw [turn] at h
    obtain ⟨next, less⟩ := seq _ _ here done h
    rw [same] at less
    obtain ⟨k, later, holds, turn, done⟩ := ih _ less (fun i low => noReset i (by omega)) next rfl
    refine ⟨k, by omega, fun j low high => ?_, turn, done⟩
    obtain before | after := Nat.lt_or_ge m j
    · exact holds j before high
    · exact (kept j low after).1

end Fairness

/-! ## A pending capture -/

section Capture

variable {c : LegalConfig} {τ : Nat → Turn} {σ : Nat → State} {n m : Nat} {s t : State}

/-- Of the micro-operations only `CHKS` writes the latched sample (40_capture_estimator.md R136). -/
theorem exec_microOp_keeps_sampleLatch {p : Phase} (away : p ≠ .chks) (h : exec p.microOp s = .next t) :
    t.sampleLatch = s.sampleLatch := by
  cases p with
  | chks => exact absurd rfl away
  | est => cases h; rfl
  | _ => exact congrArg CaptureUnit.latch (exec_keeps_captureUnit rfl h)

theorem EventFrame.sampleLatch (h : EventFrame s t) : t.sampleLatch = s.sampleLatch := by rw [h]

/-- A pending sample waits for `CHKS`: the way there is at most the steps left of the iteration. -/
theorem exists_chks (fair : Fair τ) (run : IsInfiniteExecution c τ σ) (noReset : ∀ m, n ≤ m → τ m ≠ .reset)
    (ready : (σ n).speedReady = true) :
    ∃ m, n ≤ m ∧ (∀ j, n ≤ j → j ≤ m → (σ j).speedReady = true) ∧ τ m = .seq ∧ (σ m).phase = .chks := by
  obtain ⟨m, le, waits, turn, chks⟩ :=
    fair.reaches (P := fun s => s.Inv ∧ s.speedReady = true) (D := fun s => s.phase = .chks) (μ := State.stepsLeft)
      run.2 noReset
      (fun w s t ⟨inv, ready⟩ h =>
        ⟨⟨act_keeps_inv inv h, (act_event_handOff h).speedReady ready⟩, (act_event_frame h).stepsLeft⟩)
      (fun s t ⟨inv, ready⟩ away h =>
        ⟨⟨act_keeps_inv inv h, (exec_microOp_keeps_speedReady away h).trans ready⟩, act_seq_stepsLeft_lt inv away h⟩)
      ⟨run.inv n, ready⟩
  exact ⟨m, le, fun j low high => (waits j low high).2, turn, chks⟩

/-- The pass planned in `start` is under way in `s` or just closed, with the sample and the speed it is drawn for. -/
structure Rendering (start s : State) : Prop where
  inv : s.Inv
  latch : s.sampleLatch = start.sampleLatch
  speed : s.speedValue = start.speedValue
  pass : ∃ k, k ≤ start.segEnd + 2 ∧ PassAfter start k s

theorem Rendering.event {start : State} {w : EventWord} (hs : Rendering start s) (h : act (.event w) s = .next t) :
    Rendering start t := by
  have frame := act_event_frame h
  obtain ⟨k, atMost, pass⟩ := hs.pass
  exact ⟨act_keeps_inv hs.inv h, frame.sampleLatch.trans hs.latch, frame.speedValue.trans hs.speed,
    k, atMost, pass.event h⟩

/-- No pass runs at `P_CHKS` or `P_EST`. -/
theorem PassAfter.phase_mem {start : State} {k : Nat} (hs : PassAfter start k s) : s.phase ∈ [.clr, .seg, .chkc] := by
  cases hs with
  | planned _ phase => rw [phase]; decide
  | drawing _ phase => rw [phase]; decide
  | closed _ phase => rw [phase]; decide

/-- At `CHKC` the pass is closed with every segment of its plan drawn. -/
theorem Rendering.drawn {start : State} (hs : Rendering start s) (chkc : s.phase = .chkc) :
    Drawn start start.segEnd s := by
  obtain ⟨k, -, pass⟩ := hs.pass
  cases pass with
  | planned _ phase => cases phase.symm.trans chkc
  | drawing _ phase => cases phase.symm.trans chkc
  | closed drawn => exact drawn

theorem Rendering.seq {start : State} (hs : Rendering start s) (inv : start.Inv) (going : s.phase ≠ .chkc)
    (h : act .seq s = .next t) : Rendering start t ∧ t.stepsLeft < s.stepsLeft := by
  obtain ⟨k, atMost, pass⟩ := hs.pass
  have phase := pass.phase_mem
  have notChks : s.phase ≠ .chks := fun chks => absurd (chks ▸ phase) (by decide)
  have notEst : s.phase ≠ .est := fun est => absurd (est ▸ phase) (by decide)
  have unfinished : k < start.segEnd + 2 := by
    refine Nat.lt_of_le_of_ne atMost fun all => going ?_
    subst all
    exact pass.complete.2
  exact ⟨⟨act_keeps_inv hs.inv h, (exec_microOp_keeps_sampleLatch notChks h).trans hs.latch,
    (exec_microOp_keeps_speedValue notEst h).trans hs.speed, k + 1, unfinished, pass.seq inv unfinished h⟩,
    act_seq_stepsLeft_lt hs.inv notChks h⟩

/-- After the `CHKS` that takes a sample come `EST` and `MAP`, each found as the one before left it. -/
theorem exists_mapped (fair : Fair τ) (run : IsInfiniteExecution c τ σ) (noReset : ∀ i, m ≤ i → τ i ≠ .reset)
    (turn : τ m = .seq) (chks : (σ m).phase = .chks) (ready : (σ m).speedReady = true) :
    ∃ i, m < i ∧ τ i = .seq ∧ (σ i).phase = .map ∧ (σ i).sampleLatch = (σ m).captureSample ∧
      (σ i).speedValue = speedOf c.toConfig (σ m).captureSample ∧ (σ i).stripOut = (σ m).stripOut := by
  have seqStep {j : Nat} (turn : τ j = .seq) : act .seq (σ j) = .next (σ (j + 1)) := turn ▸ run.2 j
  have taken := ((act_seq_eq chks).trans (exec_chks_ready ready)).symm.trans (seqStep turn)
  rw [Host.Outcome.next.injEq] at taken
  obtain ⟨e, leE, turnE, frameE⟩ :=
    fair.exists_next_seq_frame (n := m + 1) run.2 fun i low => noReset i (by omega)
  have est : (σ e).phase = .est := by rw [frameE.phase, ← taken]
  have estimated := (act_seq_eq est).symm.trans (seqStep turnE)
  have estimated : { σ e with
      speedValue := speedOf (σ e).cfg.toConfig (σ e).sampleLatch, phase := .map } = σ (e + 1) := by
    injection estimated
  obtain ⟨i, leI, turnI, frameI⟩ :=
    fair.exists_next_seq_frame (n := e + 1) run.2 fun i low => noReset i (by omega)
  refine ⟨i, by omega, turnI, ?_, ?_, ?_, ?_⟩
  · rw [frameI.phase, ← estimated]
  · rw [frameI.sampleLatch, ← estimated, frameE.sampleLatch, ← taken]
  · rw [frameI.speedValue, ← estimated, run.cfg e, frameE.sampleLatch, ← taken]
  · rw [frameI.stripOut, ← estimated, frameE.stripOut, ← taken]

/-- A planned pass is drawn, for the sample and the speed it was planned with. -/
theorem exists_drawn (fair : Fair τ) (run : IsInfiniteExecution c τ σ) (noReset : ∀ m, n ≤ m → τ m ≠ .reset)
    (clr : (σ n).phase = .clr) (idx : (σ n).segIdx = 0) :
    ∃ k, n ≤ k ∧ (σ k).phase = .chkc ∧ Rendering (σ n) (σ k) := by
  obtain ⟨k, le, renders, -, chkc⟩ :=
    fair.reaches (P := Rendering (σ n)) (D := fun s => s.phase = .chkc) (μ := State.stepsLeft) run.2 noReset
      (fun w s t hs h => ⟨hs.event h, (act_event_frame h).stepsLeft⟩)
      (fun s t hs going h => hs.seq (run.inv n) going h)
      ⟨run.inv n, rfl, rfl, 0, Nat.zero_le _, .planned ⟨rfl, rfl, rfl, rfl, rfl⟩ clr idx rfl⟩
  exact ⟨k, le, chkc, renders k le (Nat.le_refl k)⟩

/-- From the `MAP` that plans it a pass is drawn, for the sample and the speed `MAP` found. -/
theorem exists_rendered (fair : Fair τ) (run : IsInfiniteExecution c τ σ) (noReset : ∀ m, n ≤ m → τ m ≠ .reset)
    (turn : τ n = .seq) (map : (σ n).phase = .map) :
    ∃ k, n < k ∧ (σ k).phase = .chkc ∧ (σ k).sampleLatch = (σ n).sampleLatch ∧
      (σ k).speedValue = (σ n).speedValue ∧ Drawn (σ n).mapped (σ n).mapped.segEnd (σ k) := by
  have mapped : (σ n).mapped = σ (n + 1) := Host.Outcome.next.inj ((act_seq_eq map).symm.trans (turn ▸ run.2 n))
  obtain ⟨k, le, chkc, renders⟩ :=
    exists_drawn (n := n + 1) fair run (fun j low => noReset j (by omega)) (mapped ▸ rfl) (mapped ▸ rfl)
  rw [← mapped] at renders
  exact ⟨k, le, chkc, renders.latch, renders.speed, renders.drawn chkc⟩

end Capture

/-! ## A pending confirm -/

namespace Direction

/-- `stepsFrom` at the phase that clears the direction's flag. -/
def stepsAfterClear : Direction → Nat
  | up => 5
  | dn => 1

/-- The gear at which the direction's guard fails with the flag set (42_shift_arbiter.md R180, R188). -/
def lastGear : Direction → Nat
  | up => 6
  | dn => 1

/-- At most how many sequencer steps lead to the phase that clears the direction's flag, with the flag set: the rest of
the iteration up to it, or the rest of this iteration and the next one up to it. -/
def stepsToClear (dir : Direction) (s : State) : Nat :=
  if dir.stepsAfterClear ≤ s.stepsLeft then s.stepsLeft - dir.stepsAfterClear
  else s.stepsLeft + (s.cfg.total + 14 - dir.stepsAfterClear)

variable {dir : Direction} {s t : State}

/-- The clearing phase is the one phase with so many steps left. -/
theorem stepsFrom_eq_stepsAfterClear_iff {total left : Nat} {p : Phase} :
    stepsFrom total left p = dir.stepsAfterClear ↔ p = dir.clearPhase := by
  cases dir with
  | up => cases p <;> simp [stepsFrom, stepsAfterClear, clearPhase]
  | dn => cases p <;> simp [stepsFrom, stepsAfterClear, clearPhase]

/-- The way from `P_CHKS` or ahead of the clearing phase leads past that phase only where `CHKC` finds no flag or the
gear step is refused. -/
theorem stepsAfterClear_le_of_successor {total total' left left' : Nat} {p q : Phase} (succ : q ∈ successorsOf p)
    (ahead : p = .chks ∨ dir.stepsAfterClear < stepsFrom total left p) (entered : p = .chkc → q = .shup)
    (shifts : p = dir.stepPhase → q = dir.assertPhase) : dir.stepsAfterClear ≤ stepsFrom total' left' q := by
  cases p with
  | chkc => rw [entered rfl]; cases dir <;> simp [stepsFrom, stepsAfterClear]
  | shup =>
    cases dir with
    | up => rw [shifts rfl]; simp [assertPhase, stepsFrom, stepsAfterClear]
    | dn =>
      obtain rfl | rfl : q = .dau ∨ q = .shdn := by simpa [successorsOf] using succ
      all_goals simp [stepsFrom, stepsAfterClear]
  | shdn =>
    cases dir with
    | up => simp [stepsFrom, stepsAfterClear] at ahead
    | dn => rw [shifts rfl]; simp [assertPhase, stepsFrom, stepsAfterClear]
  | chks | seg =>
    simp only [successorsOf, List.mem_cons, List.not_mem_nil, or_false] at succ
    obtain rfl | rfl := succ <;> cases dir <;> simp only [stepsFrom, stepsAfterClear] <;> omega
  | est | map | clr | dau | dmu | clu | dad | dmd | cld =>
    obtain rfl := List.mem_singleton.1 succ
    cases dir <;> simp [stepsFrom, stepsAfterClear] at ahead ⊢

/-- The sequencer steps the direction's flag waits for: the one that clears it, or the gear step that is refused. -/
def Served (dir : Direction) (s : State) : Prop :=
  s.phase = dir.stepPhase ∧ dir.allowed s = false ∨ s.phase = dir.clearPhase

/-- Of the micro-operations only the direction's gear step and the one that clears its flag write the flag. -/
theorem exec_microOp_keeps_confirm {p : Phase} (notStep : p ≠ dir.stepPhase) (notClear : p ≠ dir.clearPhase)
    (h : exec p.microOp s = .next t) : dir.confirm t = dir.confirm s := by
  cases p with
  | est | map => cases h; cases dir <;> rfl
  | chks => obtain ⟨-, rfl⟩ | ⟨-, rfl⟩ := execChks_next h <;> cases dir <;> rfl
  | clr => cases (execSclr_eq s).symm.trans h; cases dir <;> rfl
  | seg => obtain ⟨-, x, -, rfl⟩ | ⟨-, rfl⟩ := execSseg_next h <;> cases dir <;> rfl
  | chkc => obtain ⟨-, rfl⟩ | ⟨-, rfl⟩ := execChkc_next h <;> cases dir <;> rfl
  | dau | dad => obtain ⟨a, -, rfl⟩ := displayAssert_eq_next h; cases dir <;> rfl
  | dmu | dmd => obtain ⟨d, -, rfl⟩ := displayMask_eq_next h; cases dir <;> rfl
  | shup =>
    cases dir with
    | up => exact absurd rfl notStep
    | dn => obtain ⟨-, rfl⟩ | ⟨-, rfl⟩ := execShup_next h <;> rfl
  | shdn =>
    cases dir with
    | up => obtain ⟨-, rfl⟩ | ⟨-, rfl⟩ := execShdn_next h <;> rfl
    | dn => exact absurd rfl notStep
  | clu =>
    cases dir with
    | up => exact absurd rfl notClear
    | dn => cases h; rfl
  | cld =>
    cases dir with
    | up => cases h; rfl
    | dn => exact absurd rfl notClear

/-- An allowed gear step goes on to the direction's display writes with its flag as it was. -/
theorem seq_of_allowed (phase : s.phase = dir.stepPhase) (allowed : dir.allowed s = true)
    (h : act .seq s = .next t) : t.phase = dir.assertPhase ∧ dir.confirm t = dir.confirm s := by
  cases ((act_seq_eq phase).trans (exec_stepPhase_allowed allowed)).symm.trans h
  cases dir <;> exact ⟨rfl, rfl⟩

/-- With a flag set `CHKC` enters the shift step (42_shift_arbiter.md R178). -/
theorem chkc_enters (set : dir.confirm s = true) (chkc : s.phase = .chkc) (h : act .seq s = .next t) :
    t.phase = .shup := by
  have confirmed : s.confirmUp = true ∨ s.confirmDn = true := by
    cases dir with
    | up => exact .inl set
    | dn => exact .inr set
  cases ((act_seq_eq chkc).trans (exec_chkc_confirmed confirmed)).symm.trans h
  rfl

/-- Events take no part in the way to the clearing phase. -/
theorem stepsToClear_of_eventFrame (dir : Direction) (h : EventFrame s t) :
    dir.stepsToClear t = dir.stepsToClear s := by
  simp only [stepsToClear, h.stepsLeft, h.cfg]

/-- A sequencer step with the direction's flag set keeps the flag and comes nearer to the phase that clears it. -/
theorem seq_waits (inv : s.Inv) (set : dir.confirm s = true) (waits : ¬dir.Served s) (h : act .seq s = .next t) :
    dir.confirm t = true ∧ dir.stepsToClear t < dir.stepsToClear s := by
  obtain ⟨notRefused, notClear⟩ := not_or.1 waits
  have shifts (phase : s.phase = dir.stepPhase) : t.phase = dir.assertPhase ∧ dir.confirm t = dir.confirm s :=
    seq_of_allowed phase (Bool.eq_true_of_not_eq_false fun refused => notRefused ⟨phase, refused⟩) h
  constructor
  · by_cases phase : s.phase = dir.stepPhase
    · exact (shifts phase).2.trans set
    · exact (exec_microOp_keeps_confirm phase notClear h).trans set
  · have notHere : s.stepsLeft ≠ dir.stepsAfterClear := fun here => notClear (stepsFrom_eq_stepsAfterClear_iff.1 here)
    have ahead (before : s.phase = .chks ∨ dir.stepsAfterClear < s.stepsLeft) : dir.stepsAfterClear ≤ t.stepsLeft :=
      stepsAfterClear_le_of_successor (total := s.cfg.total) (left := s.segEnd - s.segIdx) (act_seq_phase h) before
        (fun chkc => chkc_enters set chkc h) fun phase => (shifts phase).1
    have cfg := act_keeps_cfg h
    have bound := (act_keeps_inv inv h).stepsLeft_le
    simp only [stepsToClear, cfg] at bound ⊢
    by_cases chks : s.phase = .chks
    · have zero : s.stepsLeft = 0 := by rw [State.stepsLeft, chks]; rfl
      have next := ahead (.inl chks)
      have pos : 0 < dir.stepsAfterClear := by cases dir <;> decide
      rw [if_pos next, if_neg (by omega)]
      omega
    · have less := act_seq_stepsLeft_lt inv chks h
      split <;> split <;> omega

/-- At the refused gear step a set flag has the gear at its bound (42_shift_arbiter.md R180, R188). -/
theorem gearIndex_of_refused (inv : s.Inv) (set : dir.confirm s = true) (refused : dir.allowed s = false) :
    s.gearIndex.toNat = dir.lastGear := by
  have low := inv.gearLow
  have high := inv.gearHigh
  cases dir with
  | up =>
    have atBound : ¬s.gearIndex.toNat < 6 := fun below =>
      Bool.false_ne_true (refused.symm.trans (upAllowed_iff.2 ⟨set, below⟩))
    simp only [lastGear]; omega
  | dn =>
    have atBound : ¬1 < s.gearIndex.toNat := fun above =>
      Bool.false_ne_true (refused.symm.trans (downAllowed_iff.2 ⟨set, above⟩))
    simp only [lastGear]; omega

theorem confirm_of_clearPhase (phase : s.phase = dir.clearPhase) (h : act .seq s = .next t) :
    dir.confirm t = false := by
  cases ((act_seq_eq phase).trans (dir.exec_clearPhase s)).symm.trans h
  exact dir.confirm_setConfirm_goto ..

end Direction

theorem HandOffLe.confirm {s t : State} (h : HandOffLe s t) (dir : Direction) (set : dir.confirm s = true) :
    dir.confirm t = true := by
  cases dir with
  | up => exact h.confirmUp set
  | dn => exact h.confirmDn set

/-- A set flag waits until its direction clears it, with the gear's digit on the display, or refuses it at the bound. -/
theorem exists_confirm_served {c : LegalConfig} {τ : Nat → Turn} {σ : Nat → State} {n : Nat} {dir : Direction}
    (fair : Fair τ) (run : IsInfiniteExecution c τ σ) (noReset : ∀ m, n ≤ m → τ m ≠ .reset)
    (set : dir.confirm (σ n) = true) :
    ∃ m, n ≤ m ∧ (∀ j, n ≤ j → j ≤ m → dir.confirm (σ j) = true) ∧ τ m = .seq ∧
      ((σ m).phase = dir.stepPhase ∧ (σ m).gearIndex.toNat = dir.lastGear ∨
        (σ m).phase = dir.clearPhase ∧ dir.confirm (σ (m + 1)) = false ∧
          ∀ bits, GearTablesComplete c.toConfig bits →
            dispAssertAt c.toConfig (σ m).gearIndex = some (σ m).dispOut) := by
  obtain ⟨m, le, waits, turn, served⟩ :=
    fair.reaches (P := fun s => s.Inv ∧ dir.confirm s = true) (D := dir.Served) (μ := dir.stepsToClear) run.2 noReset
      (fun w s t ⟨inv, set⟩ h =>
        ⟨⟨act_keeps_inv inv h, (act_event_handOff h).confirm dir set⟩,
          dir.stepsToClear_of_eventFrame (act_event_frame h)⟩)
      (fun s t ⟨inv, set⟩ waits h =>
        have ⟨kept, nearer⟩ := Direction.seq_waits inv set waits h
        ⟨⟨act_keeps_inv inv h, kept⟩, nearer⟩)
      ⟨run.inv n, set⟩
  refine ⟨m, le, fun j low high => (waits j low high).2, turn, ?_⟩
  obtain ⟨phase, refused⟩ | phase := served
  · exact .inl ⟨phase, Direction.gearIndex_of_refused (run.inv m) (waits m le (Nat.le_refl m)).2 refused⟩
  · refine .inr ⟨phase, Direction.confirm_of_clearPhase phase (turn ▸ run.2 m), fun bits tables => ?_⟩
    obtain ⟨-, shown⟩ :=
      (displayShows_outside_iff (phase ▸ insideShift_clearPhase dir)).1 (run.displayShows tables m)
    rwa [run.cfg m] at shown

/-! ## The obligation -/

/-- Settles O58: a measure brings a fair execution to the `CHKS` that takes the capture, through the pass it is drawn
in, and to the step a confirm flag waits for; with no sequencer step the frame of the events is all there is. -/
theorem fairExecutionsServeCapturesAndConfirms : Obligations.FairExecutionsServeCapturesAndConfirms := by
  intro c τ σ n run noReset
  refine ⟨fun fair => ⟨fun ready => ?_, exists_confirm_served (dir := .up) fair run noReset,
    exists_confirm_served (dir := .dn) fair run noReset⟩, fun unfair m le => ?_⟩
  · obtain ⟨m, leM, waits, turn, chks⟩ := exists_chks fair run noReset ready
    obtain ⟨i, leI, turnI, map, latch, speed, out⟩ :=
      exists_mapped fair run (fun j low => noReset j (leM.trans low)) turn chks (waits m leM (Nat.le_refl m))
    obtain ⟨k, leK, chkc, latchK, speedK, drawn⟩ :=
      exists_rendered fair run (fun j low => noReset j (by omega)) turnI map
    have lit : (σ k).litCount = litOf c.toConfig (σ k).speedValue := by
      rw [drawn.lit, State.mapped_litCount, run.cfg i, speedK]
    have red : (σ k).redline = redlineOf c.toConfig (σ k).litCount := by
      rw [drawn.redline, lit, State.mapped_redline, run.cfg i, speedK]
    have words := drawn.out
    have image := congrArg StripView.image drawn.strip
    rw [← drawn.redline, ← drawn.plan, ← drawn.cfg, run.cfg k] at words image
    exact ⟨m, k, leM, leI.trans leK, waits, turn, chks, chkc, latchK.trans latch, speedK.trans speed, lit, red,
      run.planAgrees k, ⟨i, leI, leK, turnI, map, drawn.latch⟩, words.trans (out ▸ rfl), image⟩
  · have frame : EventFrame (σ n) (σ m) :=
      run.2.eventFrame le fun j low _ => exists_event_of_ne (unfair j low) (noReset j low)
    rw [frame]
    exact ⟨rfl, rfl, rfl, rfl, rfl, rfl, rfl, rfl, rfl, rfl, rfl, rfl⟩

end Sys2Proof.Machine

/-! # Proofs: event words and the loop

The layers, in order: an event word as a sequence of its operations; what `TICKF` writes, in one equation, so that two
operations of an event word can be exchanged; the turns still to come, which no operation reads or writes; the run of
the machine. The obligations are settled at the end. -/

namespace Sys2Proof.Machine

/-! ## An event word as a sequence of its operations -/

@[simp] theorem andThen_pure (r : Result) : andThen r .next = r := by
  cases r <;> rfl

@[simp] theorem runOps_singleton (i : Instr) (s : State) : runOps [i] s = exec i s := andThen_pure _

/-- An event operation has a word of its own, which runs just that operation (30_encoding.md R102 to R104). -/
theorem exists_own_word {i : Instr} (hi : i ∈ eventOps) :
    ∃ v : EventWord, encode i = .ev v ∧ ∀ s, act (.event v) s = exec i s := by
  have own := decode_encode_event hi
  have event : ∃ v, encode i = .ev v := by revert i; decide
  obtain ⟨v, word⟩ := event
  rw [word, decode_ev, Except.ok.injEq] at own
  exact ⟨v, word, fun s => by rw [act, own, runOps_singleton]⟩

/-- Event operations in order are their own words in order. -/
theorem exists_own_words {is : List Instr} (events : ∀ i ∈ is, i ∈ eventOps) :
    ∃ vs : List EventWord, vs.map CodeWord.ev = is.map encode ∧
      ∀ s, runOps is s = runTurns (vs.map Turn.event) s := by
  induction is with
  | nil => exact ⟨[], rfl, fun _ => rfl⟩
  | cons i is ih =>
    obtain ⟨v, word, runs⟩ := exists_own_word (events i (.head _))
    obtain ⟨vs, words, runAll⟩ := ih fun j hj => events j (.tail _ hj)
    refine ⟨v :: vs, by simp only [List.map_cons, word, words], fun s => ?_⟩
    rw [runOps, List.map_cons, runTurns, runs, funext runAll]

/-- A bit of the word runs its operation, or leaves the state as it is. -/
theorem runOps_if (asked : Bool) (i : Instr) (s : State) :
    runOps (if asked then [i] else []) s = if asked then exec i s else .next s := by
  cases asked with
  | true => exact runOps_singleton i s
  | false => rfl

/-- The input edge of a word: the first of its four bits that is set (30_encoding.md R103). -/
theorem runOps_decodeEdge (w : EventWord) (s : State) :
    runOps (decodeEdge w) s =
      if carries w .pu then exec .svpu s
      else if carries w .pd then exec .svpd s
      else if carries w .cu then exec .svcu s
      else if carries w .cd then exec .svcd s
      else .next s := by
  unfold decodeEdge
  split_ifs
  · exact runOps_singleton ..
  · exact runOps_singleton ..
  · exact runOps_singleton ..
  · exact runOps_singleton ..
  · rfl

/-! ## Operations of different groups -/

/-- The state `TICKF` leaves: the timer is written always, the phase and the compare value on a match
(41_mapper_flash.md R150). -/
def State.flashTicked (s : State) : State :=
  { s with
    flashTimer := flashTick s.cfg.toConfig s.flashTimer
    flashPhase :=
      if flashTick s.cfg.toConfig s.flashTimer = s.flashCompare then !s.flashPhase else s.flashPhase
    flashCompare :=
      if flashTick s.cfg.toConfig s.flashTimer = s.flashCompare then flashRearm s.cfg.toConfig s.flashCompare
      else s.flashCompare }

theorem exec_tickf (s : State) : exec .tickf s = .next s.flashTicked := by
  change execTickf s = _
  unfold execTickf State.flashTicked
  split <;> rfl

/-- `TICKF` reads and writes the flash unit alone, and no other event operation does, so either may come first. -/
theorem runOps_tickf_comm {i : Instr} (hi : i ∈ unflashedOps) (s : State) :
    runOps [.tickf, i] s = runOps [i, .tickf] s := by
  cases i with
  | tickc | tach | svpu | svpd | svcu | svcd =>
    simp only [runOps, exec_tickf, andThen_next]
    rfl
  | _ => simp [unflashedOps, edgeOps] at hi

/-- A capture operation and an edge operation have no element in common, so either may come first. -/
theorem runOps_capture_edge_comm {i j : Instr} (hi : i ∈ [Instr.tickc, .tach]) (hj : j ∈ edgeOps) (s : State) :
    runOps [i, j] s = runOps [j, i] s := by
  cases i with
  | tickc | tach =>
    cases j with
    | svpu | svpd | svcu | svcd => rfl
    | _ => simp [edgeOps] at hj
  | _ => simp at hi

/-! ## The turns still to come -/

theorem andThen_ite (p : Prop) [Decidable p] (a b : Result) (f : State → Result) :
    andThen (if p then a else b) f = if p then andThen a f else andThen b f :=
  apply_ite (andThen · f) p a b

theorem andThen_withEntry {α : Type} (table : Table) (entry : Option α) (g : α → Result) (f : State → Result) :
    andThen (withEntry table entry g) f = withEntry table entry fun a => andThen (g a) f := by
  cases entry <;> rfl

/-- The state with other turns to come. -/
def State.withTurns (s : State) (schedule : List Turn) (supply : Supply) : State :=
  { s with schedule := schedule, supply := supply }

section TurnsToCome

variable {s t : State} (schedule : List Turn) (supply : Supply)

/-- No operation reads or writes the turns to come (44_step_and_loop.md R220, log entry 3). -/
theorem exec_withTurns (i : Instr) (s : State) :
    exec i (s.withTurns schedule supply) = andThen (exec i s) fun t => .next (t.withTurns schedule supply) := by
  cases i with
  | tickc | tach | svpu | svpd | svcu | svcd | nope | est | map | clru | clrd | clr | seg | reset => rfl
  | tickf => rw [exec_tickf, exec_tickf]; rfl
  | sclr => simp only [exec, execSclr_eq]; rfl
  | chks => simp only [exec, execChks, andThen_ite]; rfl
  | chkc => simp only [exec, execChkc, andThen_ite]; rfl
  | shup => simp only [exec, execShup, andThen_ite]; rfl
  | shdn => simp only [exec, execShdn, andThen_ite]; rfl
  | dasu => simp only [exec, execDasu, displayAssert, andThen_withEntry]; rfl
  | dasd => simp only [exec, execDasd, displayAssert, andThen_withEntry]; rfl
  | dmku => simp only [exec, execDmku, displayMask, andThen_withEntry]; rfl
  | dmkd => simp only [exec, execDmkd, displayMask, andThen_withEntry]; rfl
  | sseg => simp only [exec, execSseg, andThen_ite, andThen_withEntry, emit_seg, andThen_next]; rfl

theorem runOps_withTurns (is : List Instr) (s : State) :
    runOps is (s.withTurns schedule supply) = andThen (runOps is s) fun t => .next (t.withTurns schedule supply) := by
  induction is generalizing s with
  | nil => rfl
  | cons i is ih => simp only [runOps, exec_withTurns, andThen_assoc, andThen_next, ih]

theorem act_withTurns (turn : Turn) (s : State) :
    act turn (s.withTurns schedule supply) = andThen (act turn s) fun t => .next (t.withTurns schedule supply) := by
  cases turn with
  | event w => exact runOps_withTurns ..
  | seq => exact exec_withTurns schedule supply s.phase.microOp s
  | reset => exact exec_withTurns schedule supply .reset s

/-- A turn leaves the turns to come as they are. -/
theorem act_keeps_turns {turn : Turn} (h : act turn s = .next t) : t.schedule = s.schedule ∧ t.supply = s.supply := by
  have own := act_withTurns s.schedule s.supply turn s
  rw [show s.withTurns s.schedule s.supply = s from rfl, h, andThen_next, Host.Outcome.next.injEq] at own
  rw [own]
  exact ⟨rfl, rfl⟩

end TurnsToCome

/-! ## The run of the machine -/

section Run

variable {s t : State}

theorem core_run_succ_of_next {n : Nat} {M : Host.Core} {s t : M.State} (h : M.step s = .next t) :
    M.run (n + 1) s = M.run n t := by
  rw [Host.Core.run, h]

theorem core_run_succ_of_refused {n : Nat} {M : Host.Core} {s : M.State} {e : M.Refusal} (h : M.step s = .refused e) :
    M.run (n + 1) s = .refused e := by
  rw [Host.Core.run, h]

theorem Supply.drop_zero (supply : Supply) : supply.drop 0 = supply := by
  cases supply <;> rfl

theorem Supply.drop_drop (supply : Supply) (m n : Nat) : (supply.drop m).drop n = supply.drop (m + n) := by
  cases supply with
  | sequencer => rfl
  | free k => simp [Supply.drop, Nat.add_assoc]

theorem Supply.turn_drop (supply : Supply) (m n : Nat) : (supply.drop m).turn n = supply.turn (m + n) := by
  cases supply with
  | sequencer => rfl
  | free k => simp [Supply.drop, Supply.turn, Nat.add_assoc]

theorem dropTurns_eq_withTurns (s : State) (n : Nat) :
    s.dropTurns n = s.withTurns (s.schedule.drop n) (s.supply.drop (n - s.schedule.length)) := rfl

theorem dropTurns_dropTurns (s : State) (m n : Nat) : (s.dropTurns m).dropTurns n = s.dropTurns (m + n) := by
  have rest : m - s.schedule.length + (n - (s.schedule.length - m)) = m + n - s.schedule.length := by omega
  simp only [State.dropTurns, List.drop_drop, List.length_drop, Supply.drop_drop, rest]

theorem turnAt_dropTurns (s : State) (m n : Nat) : (s.dropTurns m).turnAt n = s.turnAt (m + n) := by
  have rest : m - s.schedule.length + (n - (s.schedule.length - m)) = m + n - s.schedule.length := by omega
  simp only [State.turnAt, State.dropTurns, List.getElem?_drop, List.length_drop, Supply.turn_drop, rest]

theorem dropTurns_zero (s : State) : s.dropTurns 0 = s := by
  simp only [State.dropTurns, List.drop_zero, Nat.zero_sub, Supply.drop_zero]

/-- The turns to come are those of the schedule and the supply alone. -/
theorem turnAt_congr (schedule : t.schedule = s.schedule) (supply : t.supply = s.supply) (n : Nat) :
    t.turnAt n = s.turnAt n := by
  rw [State.turnAt, State.turnAt, schedule, supply]

/-- Taking turns off before or after a turn is the same. -/
theorem act_dropTurns (turn : Turn) (s : State) (n : Nat) :
    act turn (s.dropTurns n) = andThen (act turn s) fun t => .next (t.dropTurns n) := by
  rw [dropTurns_eq_withTurns, act_withTurns]
  cases h : act turn s with
  | fault e => cases e
  | refused e => rfl
  | next t =>
    obtain ⟨schedule, supply⟩ := act_keeps_turns h
    rw [andThen_next, andThen_next, dropTurns_eq_withTurns, schedule, supply]

/-- A step takes the first turn; the others are those of the state it leaves. -/
theorem runTurns_turnAt_succ (n : Nat) (s : State) :
    runTurns ((List.range (n + 1)).map s.turnAt) (s.dropTurns (n + 1)) =
      andThen (step s) fun t => runTurns ((List.range n).map t.turnAt) (t.dropTurns n) := by
  rw [List.range_succ_eq_map, List.map_cons, List.map_map, runTurns, Nat.add_comm n 1, ← dropTurns_dropTurns,
    act_dropTurns, andThen_assoc, ← step_eq_act]
  cases h : step s with
  | fault e => cases e
  | refused e => rfl
  | next t =>
    rw [step_eq_act] at h
    obtain ⟨schedule, supply⟩ := act_keeps_turns h
    have turns : (List.range n).map (s.turnAt ∘ Nat.succ) = (List.range n).map t.turnAt := by
      refine List.map_congr_left fun k _ => ?_
      rw [turnAt_congr schedule supply, turnAt_dropTurns, Nat.add_comm, Function.comp]
    rw [andThen_next, andThen_next, andThen_next, turns]

/-- The machine runs the turns of its schedule and then its supply, one for each step. -/
theorem core_run_eq_runTurns (n : Nat) (s : State) :
    Host.Core.run core n s = runTurns ((List.range n).map s.turnAt) (s.dropTurns n) := by
  induction n generalizing s with
  | zero => rw [dropTurns_zero]; rfl
  | succ n ih =>
    rw [runTurns_turnAt_succ]
    cases h : step s with
    | fault e => cases e
    | refused e => exact core_run_succ_of_refused h
    | next t => exact (core_run_succ_of_next h).trans (ih t)

/-- The turns put before the schedule are the first to come. -/
theorem map_turnAt_append (ts : List Turn) (s : State) :
    (List.range ts.length).map (State.turnAt { s with schedule := ts ++ s.schedule }) = ts := by
  refine List.ext_getElem (by simp) fun k _ inside => ?_
  simp [State.turnAt, List.getElem?_append_left inside, List.getElem?_eq_getElem inside]

/-- With the turns put before the schedule taken off, the state is as it was. -/
theorem dropTurns_append (ts : List Turn) (s : State) :
    State.dropTurns { s with schedule := ts ++ s.schedule } ts.length = s := by
  simp [State.dropTurns, Supply.drop_zero]

end Run

/-! ## The obligations -/

/-- Settles O46, by induction over the steps: no turn touches the turns to come, so each step finds its own. -/
theorem runFollowsTurns : Obligations.RunFollowsTurns := by
  refine ⟨fun ts s => ?_, core_run_eq_runTurns⟩
  exact (core_run_eq_runTurns ..).trans (by rw [map_turnAt_append, dropTurns_append])

/-- Settles O43: an event word runs event operations, each of which is its own word's. -/
theorem eventWordActsAsItsOperations : Obligations.EventWordActsAsItsOperations := by
  refine ⟨fun w s => ?_, fun s => ⟨?_, ?_⟩⟩
  · obtain ⟨vs, words, runs⟩ := exists_own_words fun i => mem_eventOps_of_mem_decodeEvent (w := w) (i := i)
    exact ⟨vs, words, runs s⟩
  · have dropped : decodeEvent (eventWord [.pu, .cu]) = [.svpu] := by decide
    rw [act, dropped, runOps_singleton]
  · have up : decodeEvent (eventWord [.pu]) = [.svpu] := by decide
    have confirm : decodeEvent (eventWord [.cu]) = [.svcu] := by decide
    simp only [runTurns, act, up, confirm, runOps, andThen_assoc, andThen_next]

/-- Settles O44: the word's groups in their order, and the elements each group writes. -/
theorem eventWordOrder : Obligations.EventWordOrder := by
  refine ⟨fun w s => ?_, fun i j s groups => ?_⟩
  · rw [act_event_eq]
    simp only [runOps_if, funext (runOps_decodeEdge w)]
    rfl
  · obtain pair | ⟨timer, edge⟩ := groups
    · simp only [List.mem_cons, List.not_mem_nil, or_false, Prod.mk.injEq] at pair
      obtain ⟨rfl, rfl⟩ | ⟨rfl, rfl⟩ := pair
      · exact (runOps_tickf_comm (by decide) s).symm
      · exact runOps_tickf_comm (by decide) s
    · by_cases flash : i = .tickf
      · subst flash
        exact runOps_tickf_comm (.tail _ (.tail _ edge)) s
      · exact runOps_capture_edge_comm (by simpa [flash] using timer) edge s

/-- Settles O37: `NOPE` is the word's one operation, and it writes nothing. -/
theorem nopeChangesNothing : Obligations.NopeChangesNothing :=
  ⟨rfl, fun _ => ⟨rfl, rfl⟩⟩

/-- Settles O45: the next turn is taken off the schedule, or off the supply, and is the operation it decodes to. -/
theorem stepRunsDecodedOperation : Obligations.StepRunsDecodedOperation := by
  intro s rest
  have code : decodePhase s.phase.code = .ok s.phase.microOp := by cases s.phase <;> rfl
  refine ⟨fun i decodes => ?_, ⟨_, code⟩, fun w => rfl, fun i w decodes => ?_, rfl, rfl, fun n => rfl⟩
  · obtain rfl : s.phase.microOp = i := Except.ok.inj (code.symm.trans decodes)
    exact ⟨rfl, rfl⟩
  · have one : decodeEvent w = [i] := Except.ok.inj decodes
    exact (congrArg (runOps · _) one).trans (runOps_singleton ..)

end Sys2Proof.Machine

/-! # Proofs: exceptions

That a step stops nowhere needs only what the layer of operations, turns and steps says: each operation completes from
the invariants, so each turn does, and a step is a turn. -/

namespace Sys2Proof.Machine

/-- The invariants do not speak of the turns still to come. -/
theorem State.Inv.dropTurns {s : State} (inv : s.Inv) (n : Nat) : (s.dropTurns n).Inv := { inv with }

/-- Settles O47: the step is a turn taken on a state that still has the invariants, and from there every operation finds
its table entry and completes. -/
theorem everyStepCompletes : Obligations.EveryStepCompletes := by
  intro s inv
  rw [step_eq_act]
  exact act_completes _ (inv.dropTurns 1)

end Sys2Proof.Machine

/-! # Proofs: reset and hazards

The layers, in order: the reset display; the way of the sequencer from one `P_CHKS` to the next, as the trace line `ITER`
takes it; what a pulse after `RESET` captures; an iteration with a sample pending, which renders one pass; an iteration
without one, which moves the gear and the confirm flags. The obligations are settled at the end. -/

namespace Sys2Proof.Machine

/-! ## The reset display -/

/-- The reset display is the two display writes of the reset gear on an empty display (10_state.md R50). -/
theorem resetDisplay_eq (c : LegalConfig) :
    ∃ a d, c.dispAssert[c.gearReset.toNat - 1]? = some a ∧ c.dispDeassert[c.gearReset.toNat - 1]? = some d ∧
      resetDisplay c.toConfig = (0 ||| a) &&& (2 ^ c.dispW - 1 - d) := by
  obtain ⟨low, -⟩ := c.gearReset_range
  obtain ⟨a, asserts, assertEntry, aFits⟩ := dispAssertAt_some c low
  obtain ⟨d, releases, deassertEntry, dFits⟩ := dispDeassertAt_some c low
  refine ⟨a, d, assertEntry, deassertEntry, ?_⟩
  simp only [resetDisplay, asserts, releases]
  rw [releaseBits_eq (assertBits_lt ..) dFits, assertBits_eq (Nat.two_pow_pos _) aFits]

/-! ## One iteration of the sequencer alone -/

/-- The sequencer alone gets from `s` to `t` in at most `n` steps, none of them a `CHKS`. -/
def LeadsWithin (n : Nat) (s t : State) : Prop :=
  ∃ is, RunsOps s is t ∧ is.length ≤ n ∧ .chks ∉ is

section Iteration

variable {s t u : State} {is : List Instr} {m n : Nat}

theorem LeadsWithin.trans (first : LeadsWithin m s t) (second : LeadsWithin n t u) : LeadsWithin (m + n) s u := by
  obtain ⟨is, ops₁, length₁, away₁⟩ := first
  obtain ⟨js, ops₂, length₂, away₂⟩ := second
  refine ⟨is ++ js, ops₁.trans ops₂, ?_, by simp [away₁, away₂]⟩
  rw [List.length_append]; omega

theorem LeadsWithin.one {p : Phase} (phase : s.phase = p) (away : p ≠ .chks) (h : exec p.microOp s = .next t) :
    LeadsWithin 1 s t :=
  ⟨[p.microOp], .one phase h, Nat.le_refl 1, by cases p <;> simp [Phase.microOp] at away ⊢⟩

theorem LeadsWithin.mono (h : LeadsWithin m s t) (le : m ≤ n) : LeadsWithin n s t := by
  obtain ⟨is, ops, length, away⟩ := h
  exact ⟨is, ops, length.trans le, away⟩

theorem LeadsWithin.keeps_inv (h : LeadsWithin n s t) (inv : s.Inv) : t.Inv := by
  obtain ⟨is, ops, -, -⟩ := h
  exact ops.keeps_inv inv

/-- `ITER` is over at the first `P_CHKS` (30_encoding.md R118). -/
theorem runIter_of_leads (first : act .seq s = .next u) (rest : LeadsWithin n u t) (chks : t.phase = .chks) :
    runIter (n + 1) s = .next t := by
  obtain ⟨is, ops, length, away⟩ := rest
  induction ops generalizing s n with
  | nil u => rw [runIter, first, andThen_next, if_pos chks]
  | @cons u v t is h ops ih =>
    obtain ⟨notChks, away⟩ := List.ne_and_not_mem_of_not_mem_cons away
    have notYet : u.phase ≠ .chks := fun at_chks => notChks (by rw [at_chks]; rfl)
    rw [runIter, first, andThen_next, if_neg notYet]
    cases n with
    | zero => exact absurd length (Nat.not_succ_le_zero _)
    | succ n => exact ih h chks (Nat.le_of_succ_le_succ length) away

theorem runTrace_iter (s : State) : runTrace [.iter] s = runIter (iterBound s.cfg.toConfig) s := andThen_pure _

end Iteration

/-! ## The pulse -/

section Pulse

variable {s : State}

/-- A capture tick alone in its word counts (40_capture_estimator.md R130). -/
theorem act_tick (s : State) :
    act (.event (eventWord [.tkc])) s = .next { s with intervalCounter := (s.intervalCounter + 1) % 2 ^ s.cfg.cntW } :=
  rfl

/-- A tachometer edge alone in its word captures (40_capture_estimator.md R132). -/
theorem act_edge (s : State) :
    act (.event (eventWord [.tach])) s =
      .next { s with captureSample := s.intervalCounter, intervalCounter := 0, speedReady := true } :=
  rfl

/-- Ticks count up and wrap, and do nothing else. -/
theorem runTurns_ticks (n : Nat) (fits : s.intervalCounter < 2 ^ s.cfg.cntW) :
    runTurns (List.replicate n (.event (eventWord [.tkc]))) s =
      .next { s with intervalCounter := (s.intervalCounter + n) % 2 ^ s.cfg.cntW } := by
  induction n generalizing s with
  | zero => rw [Nat.add_zero, Nat.mod_eq_of_lt fits]; rfl
  | succ n ih =>
    rw [List.replicate_succ, runTurns, act_tick, andThen_next, ih (Nat.mod_lt _ (Nat.two_pow_pos _))]
    simp only [Nat.mod_add_mod, Nat.add_assoc, Nat.add_comm 1 n]

/-- `PULSE n` captures the ticks counted so far and its own `n`, wrapped at the counter's width. -/
theorem runLine_pulse (n : Nat) (fits : s.intervalCounter < 2 ^ s.cfg.cntW) :
    runLine (.pulse n) s =
      .next { s with
        captureSample := (s.intervalCounter + n) % 2 ^ s.cfg.cntW, intervalCounter := 0, speedReady := true } := by
  rw [runLine, traceTurns, runTurns_append, runTurns_ticks n fits, andThen_next, runTurns, act_edge, andThen_next,
    runTurns]
  nofun

/-- The state of a block that was reset and has captured `sample` since, with the turns still to come of `s`. -/
def State.captured (s : State) (sample : Nat) : State :=
  { State.resetOf s.cfg with captureSample := sample, speedReady := true, schedule := s.schedule, supply := s.supply }

theorem captured_inv (s : State) (sample : Nat) : (s.captured sample).Inv := { resetOf_inv s.cfg with }

/-- `RESET` and a pulse of `n` ticks capture `n`, wrapped at the counter's width. -/
theorem runTrace_reset_pulse (n : Nat) (rest : List TraceLine) (s : State) :
    runTrace (.reset :: .pulse n :: rest) s = runTrace rest (s.captured (n % 2 ^ s.cfg.cntW)) := by
  have reset : runLine .reset s =
      .next { State.resetOf s.cfg with schedule := s.schedule, supply := s.supply } := rfl
  rw [runTrace, reset, andThen_next, runTrace, runLine_pulse n (Nat.two_pow_pos _), andThen_next]
  simp only [State.resetOf, Nat.zero_add]
  rfl

end Pulse

/-! ## An iteration that renders -/

/-- `t` differs from `s` at most in what the operations of a pass write (43_strip_sequencer.md R200, R202). -/
def PassFrame (s t : State) : Prop :=
  t = { s with segIdx := t.segIdx, phase := t.phase, stripOut := t.stripOut, strip := t.strip }

section Render

variable {s t u : State} {is : List Instr}

theorem PassFrame.trans (before : PassFrame s t) (after : PassFrame t u) : PassFrame s u := by
  unfold PassFrame at before after
  exact after.trans (by rw [before])

theorem exec_passFrame {i : Instr} (pass : i = .sclr ∨ i = .sseg) (h : exec i s = .next t) : PassFrame s t := by
  obtain rfl | rfl := pass
  · cases (execSclr_eq s).symm.trans h; rfl
  · obtain ⟨-, x, -, rfl⟩ | ⟨-, rfl⟩ := execSseg_next h <;> rfl

/-- The operations of a pass in order write no more than each of them does. -/
theorem RunsOps.passFrame (h : RunsOps s is t) (pass : ∀ i ∈ is, i = .sclr ∨ i = .sseg) : PassFrame s t := by
  induction h with
  | nil => rfl
  | cons h _ ih => exact (exec_passFrame (pass _ (.head _)) h).trans (ih fun i hi => pass i (.tail _ hi))

/-- The operations the sequencer runs are those of the turns. -/
theorem exists_runsOps {n : Nat} (h : runTurns (List.replicate n .seq) s = .next t) :
    ∃ is, is.length = n ∧ RunsOps s is t := by
  induction n generalizing s with
  | zero => cases h; exact ⟨[], rfl, .nil _⟩
  | succ n ih =>
    obtain ⟨u, hu, rest⟩ := andThen_eq_next h
    obtain ⟨is, length, ops⟩ := ih rest
    exact ⟨_, congrArg (· + 1) length, .cons hu ops⟩

/-- The operations run so far and the one that comes next. -/
theorem RunsOps.opsFrom (h : RunsOps s is t) : opsFrom (is.length + 1) s = is ++ [t.phase.microOp] := by
  induction h with
  | nil s => exact opsFrom_one s
  | cons h _ ih => rw [List.length_cons, opsFrom_succ _ h, ih]; rfl

/-- A planned pass leads to `CHKC` by `SCLR` and `SSEG` alone, with every segment of its plan drawn
(43_strip_sequencer.md R204). -/
theorem exists_pass (inv : s.Inv) (clr : s.phase = .clr) (idx : s.segIdx = 0) :
    ∃ t, LeadsWithin (s.segEnd + 2) s t ∧ t.phase = .chkc ∧ Drawn s s.segEnd t ∧ PassFrame s t := by
  obtain ⟨t, run, chkc, drawn⟩ := runTurns_pass (ts := List.replicate (s.segEnd + 2) .seq) inv clr idx
    (by simp) List.count_replicate_self
  obtain ⟨is, length, ops⟩ := exists_runsOps run
  have order : is ++ [.chkc] = .sclr :: List.replicate (s.segEnd + 1) .sseg ++ [.chkc] := by
    have ahead := ops.opsFrom
    rw [length, chkc, opsFrom_clr inv clr idx] at ahead
    exact ahead.symm
  obtain rfl := List.append_cancel_right order
  have pass : ∀ i ∈ Instr.sclr :: List.replicate (s.segEnd + 1) .sseg, i = .sclr ∨ i = .sseg := by simp
  exact ⟨t, ⟨_, ops, length.le, fun mem => by simpa using pass _ mem⟩, chkc, drawn, ops.passFrame pass⟩

/-- The state after `CHKS`, `EST` and `MAP` on a pending sample. -/
def State.planned (s : State) : State :=
  { s with
    sampleLatch := s.captureSample, speedReady := false
    speedValue := speedOf s.cfg.toConfig s.captureSample }.mapped

theorem act_chks_leads_planned (chks : s.phase = .chks) (ready : s.speedReady = true) :
    ∃ u, act .seq s = .next u ∧ LeadsWithin 2 u s.planned :=
  ⟨_, (act_seq_eq chks).trans (exec_chks_ready ready),
    (LeadsWithin.one (p := .est) rfl (by decide) rfl).trans (.one (p := .map) rfl (by decide) (exec_map _))⟩

/-- With a sample and no confirm pending, an iteration is the pass that the sample and the flash phase call for, and
writes nothing else. -/
theorem runIter_render (inv : s.Inv) (chks : s.phase = .chks) (ready : s.speedReady = true)
    (noUp : s.confirmUp = false) (noDn : s.confirmDn = false) :
    ∃ t, runIter (iterBound s.cfg.toConfig) s = .next t ∧ t.phase = .chks ∧ PassFrame s.planned t ∧
      t.stripOut = s.stripOut ++ passWords s.cfg.toConfig s.planned.redline s.planned.segEnd := by
  obtain ⟨u, first, plan⟩ := act_chks_leads_planned chks ready
  have planned := plan.keeps_inv (act_keeps_inv inv first)
  obtain ⟨v, pass, chkc, drawn, frame⟩ := exists_pass planned rfl rfl
  have skip : exec .chkc v = .next (v.goto .chks) :=
    exec_chkc_none (by rw [frame]; exact noUp) (by rw [frame]; exact noDn)
  have back := (plan.trans pass).trans (.one chkc (by decide) skip)
  have bound : 2 + (s.planned.segEnd + 2) + 1 ≤ s.cfg.total + 13 := by
    have : s.planned.segEnd ≤ s.cfg.total := planned.planInStrip
    omega
  exact ⟨v.goto .chks, runIter_of_leads first (back.mono bound) rfl, rfl, frame.trans rfl, drawn.out⟩

/-- With the flash phase off a pass is graduated or dark: above `TOTAL` it is the `CLR` alone, in whatever regime
(41_mapper_flash.md R157). -/
theorem passWords_flash_off (c : Config) (lit : Nat) :
    passWords c (redlineOf c lit) (segEndOf c lit false) = passWords c false (if lit ≤ c.total then lit else 0) := by
  by_cases fits : lit ≤ c.total
  · rw [redlineOf_graduated fits, segEndOf_graduated fits, if_pos fits]
  · rw [segEndOf_flash_off (Nat.not_le.1 fits), if_neg fits, passWords_zero, passWords_zero]

end Render

/-! ## An iteration without a sample -/

/-- At a bound a flag survives exactly without `CLEAR_ON_BOUND`. -/
theorem confirmAtBound_eq_and (c : Config) (confirm : Bool) :
    confirmAtBound c confirm = (confirm && !c.clearOnBound) := by
  cases confirm with
  | true => rw [confirmAtBound]; cases c.clearOnBound <;> rfl
  | false => rfl

/-- What the shift step decides on: the gear and the two confirm flags (10_state.md R36, R37). -/
structure Gearbox where
  gear : Gear
  up : Bool
  dn : Bool

namespace Gearbox

/-- The guard of a direction (42_shift_arbiter.md R180, R188). -/
def allowed : Direction → Gearbox → Bool
  | .up, b => upAllowed b.up b.gear
  | .dn, b => downAllowed b.dn b.gear

/-- What a direction of the shift step makes of it: the gear moved and the flag cleared where the guard holds, else the
flag left to `CLEAR_ON_BOUND` (42_shift_arbiter.md R180, R186, R188, R190). -/
def shift (c : Config) : Direction → Gearbox → Gearbox
  | .up, b => if upAllowed b.up b.gear then ⟨b.gear + 1, false, b.dn⟩ else { b with up := confirmAtBound c b.up }
  | .dn, b => if downAllowed b.dn b.gear then ⟨b.gear - 1, b.up, false⟩ else { b with dn := confirmAtBound c b.dn }

/-- A whole shift step: up, then down (42_shift_arbiter.md R196). -/
def shiftStep (c : Config) (b : Gearbox) : Gearbox := (b.shift c .up).shift c .dn

/-- No direction of the shift step finds its guard to hold. -/
def Stays (c : Config) (b : Gearbox) : Prop := b.allowed .up = false ∧ (b.shift c .up).allowed .dn = false

/-- A confirm edge of a direction sets its flag (42_shift_arbiter.md R174, R176). -/
def confirm : Direction → Gearbox → Gearbox
  | .up, b => { b with up := true }
  | .dn, b => { b with dn := true }

/-- With no flag set a shift step would make no difference, which is why `CHKC` may leave it out. -/
theorem shiftStep_of_none (c : Config) {b : Gearbox} (up : b.up = false) (dn : b.dn = false) : b.shiftStep c = b := by
  obtain ⟨gear, _, _⟩ := b
  subst up dn
  rfl

/-! The shift step at the bounds and next to them; `CLEAR_ON_BOUND` decides what is left of a flag there. -/

section Bounds

variable (c : Config) (up dn : Bool)

theorem shiftStep_top : shiftStep c ⟨6, up, false⟩ = ⟨6, up && !c.clearOnBound, false⟩ := by
  rw [← confirmAtBound_eq_and]
  cases up <;> rfl

theorem shiftStep_top_down : shiftStep c ⟨6, up, true⟩ = ⟨5, up && !c.clearOnBound, false⟩ := by
  have gear : (6 : Gear) - 1 = 5 := by decide
  rw [← confirmAtBound_eq_and, ← gear]
  cases up <;> rfl

theorem shiftStep_below_top : shiftStep c ⟨5, up, false⟩ = ⟨if up then 6 else 5, false, false⟩ := by
  cases up <;> rfl

theorem shiftStep_bottom : shiftStep c ⟨1, false, dn⟩ = ⟨1, false, dn && !c.clearOnBound⟩ := by
  rw [← confirmAtBound_eq_and]
  cases dn <;> rfl

/-- The up direction makes room for the down one in the same shift step. -/
theorem shiftStep_bottom_up : shiftStep c ⟨1, true, dn⟩ = ⟨if dn then 1 else 2, false, false⟩ := by
  have gear : (1 + 1 : Gear) - 1 = 1 := by decide
  cases dn with
  | true => exact congrArg (Gearbox.mk · false false) gear
  | false => rfl

theorem stays_top : Stays c ⟨6, up, false⟩ := by cases up <;> exact ⟨rfl, rfl⟩
theorem stays_bottom : Stays c ⟨1, false, dn⟩ := by cases dn <;> exact ⟨rfl, rfl⟩

end Bounds

end Gearbox

/-- The gearbox of a state. -/
def State.gearbox (s : State) : Gearbox := ⟨s.gearIndex, s.confirmUp, s.confirmDn⟩

/-- A block of configuration `c` at the start of an iteration that has no sample to take, with its gearbox. -/
structure Quiet (c : LegalConfig) (b : Gearbox) (s : State) : Prop where
  inv : s.Inv
  cfg : s.cfg = c
  chks : s.phase = .chks
  notReady : s.speedReady = false
  gearbox : s.gearbox = b

section Shift

variable {c : LegalConfig} {b : Gearbox} {dir : Direction} {s : State}

theorem shifted_gearbox (allowed : dir.allowed s = true) (display : Nat) :
    (dir.shifted display s).gearbox = s.gearbox.shift s.cfg.toConfig dir := by
  cases dir <;> exact (if_pos allowed).symm

theorem refused_gearbox (refused : dir.allowed s = false) :
    (dir.refused s).gearbox = s.gearbox.shift s.cfg.toConfig dir := by
  cases dir <;> exact (if_neg (Bool.eq_false_iff.1 refused)).symm

theorem gearbox_allowed (dir : Direction) (s : State) : s.gearbox.allowed dir = dir.allowed s := by
  cases dir <;> rfl

/-- A direction of the shift step shifts the gearbox, and touches the display only if its guard holds. -/
theorem exists_direction (dir : Direction) (inv : s.Inv) (phase : s.phase = dir.stepPhase) :
    ∃ t, LeadsWithin 4 s t ∧ t.phase = dir.endPhase ∧ t.cfg = s.cfg ∧ t.speedReady = s.speedReady ∧
      t.gearbox = s.gearbox.shift s.cfg.toConfig dir ∧ (s.gearbox.allowed dir = false → t.dispOut = s.dispOut) := by
  rw [gearbox_allowed]
  cases allowed : dir.allowed s with
  | true =>
    obtain ⟨display, ops⟩ := runsOps_shifted inv phase allowed
    have away : .chks ∉ dir.fullOps := by cases dir <;> decide
    exact ⟨dir.shifted display s, ⟨_, ops, Nat.le_refl 4, away⟩, rfl, by cases dir <;> rfl, by cases dir <;> rfl,
      shifted_gearbox allowed display, nofun⟩
  | false =>
    have away : .chks ∉ [dir.stepPhase.microOp] := by cases dir <;> decide
    exact ⟨dir.refused s, ⟨_, runsOps_refused phase allowed, by simp, away⟩, rfl, by cases dir <;> rfl,
      by cases dir <;> rfl, refused_gearbox allowed, fun _ => by cases dir <;> rfl⟩

theorem Quiet.gear (hs : Quiet c b s) : s.gearIndex = b.gear := congrArg Gearbox.gear hs.gearbox
theorem Quiet.up (hs : Quiet c b s) : s.confirmUp = b.up := congrArg Gearbox.up hs.gearbox
theorem Quiet.dn (hs : Quiet c b s) : s.confirmDn = b.dn := congrArg Gearbox.dn hs.gearbox

/-- `CHKC` skips a shift step that would make no difference, so an iteration without a sample is one in any case. -/
theorem Quiet.iteration (hs : Quiet c b s) :
    ∃ t, runTrace [.iter] s = .next t ∧ Quiet c (b.shiftStep c.toConfig) t ∧
      (b.Stays c.toConfig → t.dispOut = s.dispOut) := by
  obtain ⟨inv, rfl, chks, notReady, rfl⟩ := hs
  have first : act .seq s = .next (s.goto .chkc) := (act_seq_eq chks).trans (exec_chks_notReady notReady)
  rw [runTrace_iter]
  by_cases confirmed : s.confirmUp = true ∨ s.confirmDn = true
  · have enter : LeadsWithin 1 (s.goto .chkc) (s.goto .shup) :=
      .one (State.goto_phase ..) (by decide) (exec_chkc_confirmed confirmed)
    obtain ⟨u, up, shdn, cfg, ready, shifted, display⟩ := exists_direction .up (inv.goto .shup) rfl
    have inv := up.keeps_inv (inv.goto .shup)
    obtain ⟨t, dn, chks, cfg', ready', shifted', display'⟩ := exists_direction .dn inv shdn
    have way := (enter.trans up).trans dn
    rw [shifted, cfg] at shifted'
    rw [shifted] at display'
    exact ⟨t, runIter_of_leads first (way.mono (by omega)) chks,
      ⟨dn.keeps_inv inv, cfg'.trans cfg, chks, ready'.trans (ready.trans notReady), shifted'⟩,
      fun stays => (display' stays.2).trans (display stays.1)⟩
  · obtain ⟨noUp, noDn⟩ := not_or.1 confirmed
    rw [Bool.not_eq_true] at noUp noDn
    have skip : LeadsWithin 1 (s.goto .chkc) (s.goto .chks) :=
      .one (State.goto_phase ..) (by decide) (exec_chkc_none noUp noDn)
    have same : s.gearbox.shiftStep s.cfg.toConfig = s.gearbox := Gearbox.shiftStep_of_none _ noUp noDn
    exact ⟨s.goto .chks, runIter_of_leads first (skip.mono (by omega)) rfl,
      ⟨inv.goto .chks, rfl, rfl, notReady, same.symm⟩, fun _ => rfl⟩

/-- The trace line of a confirm edge (30_encoding.md R118). -/
def Direction.confirmLine : Direction → TraceLine
  | up => .cu
  | dn => .cd

/-- A confirm edge sets its flag and releases the relays (42_shift_arbiter.md R174, R176). -/
theorem runLine_confirm (dir : Direction) (s : State) :
    runLine dir.confirmLine s = .next (dir.setConfirm true (s.setRelays false false)) := by
  cases dir <;> rfl

theorem Quiet.setConfirm (hs : Quiet c b s) (dir : Direction) :
    Quiet c (b.confirm dir) (dir.setConfirm true (s.setRelays false false)) := by
  obtain ⟨inv, cfg, chks, notReady, rfl⟩ := hs
  have inv := inv.setRelays (up := false) (dn := false) (by decide)
  cases dir <;> exact ⟨{ inv with }, cfg, chks, notReady, rfl⟩

/-- A confirm edge and an iteration: the flag is set first, then served if it can be. -/
theorem Quiet.confirmIteration (hs : Quiet c b s) (dir : Direction) :
    ∃ t, runTrace [dir.confirmLine, .iter] s = .next t ∧ Quiet c ((b.confirm dir).shiftStep c.toConfig) t ∧
      ((b.confirm dir).Stays c.toConfig → t.dispOut = s.dispOut) := by
  obtain ⟨t, run, quiet, display⟩ := (hs.setConfirm dir).iteration
  rw [Direction.setConfirm_dispOut] at display
  exact ⟨t, by rw [runTrace, runLine_confirm, andThen_next, run], quiet, display⟩

end Shift

/-! ## The obligations -/

/-- Settles O60: the trace captures `n` and runs the one iteration that renders it, from a reset block whose flash phase
is off. -/
theorem captureToStripEndToEnd : Obligations.CaptureToStripEndToEnd := by
  intro s n m speed lit sample estimate mapped
  have estimate : speed = speedOf s.cfg.toConfig m := estimate
  subst sample estimate mapped
  obtain ⟨t, run, chks, frame, out⟩ := runIter_render (captured_inv s (n % 2 ^ s.cfg.cntW)) rfl rfl rfl rfl
  have trace := (runTrace_reset_pulse n [.iter] s).trans ((runTrace_iter _).trans run)
  refine ⟨t, trace, chks, ?_, ?_, ?_, ?_, ?_, ?_, out.trans (passWords_flash_off ..)⟩
  all_goals rw [frame]; rfl

/-- Settles O24: a confirm edge sets its flag and an iteration runs one shift step on the gearbox, which at the bounds
is written out. -/
theorem confirmAtBoundStaysArmed : Obligations.ConfirmAtBoundStaysArmed := by
  intro s inv chks notReady
  constructor
  · intro noDn gear
    have gearbox : s.gearbox = ⟨6, s.confirmUp, false⟩ := by
      rw [State.gearbox, noDn, BitVec.eq_of_toNat_eq (y := 6) gear]
    have quiet : Quiet s.cfg ⟨6, s.confirmUp, false⟩ s := ⟨inv, rfl, chks, notReady, gearbox⟩
    obtain ⟨t₁, run₁, quiet₁, display₁⟩ := quiet.confirmIteration .up
    rw [Gearbox.confirm, Gearbox.shiftStep_top, Bool.true_and] at quiet₁
    obtain ⟨t₂, run₂, quiet₂, -⟩ := quiet₁.confirmIteration .dn
    rw [Gearbox.confirm, Gearbox.shiftStep_top_down, Bool.and_self] at quiet₂
    obtain ⟨t₃, run₃, quiet₃, -⟩ := quiet₂.iteration
    rw [Gearbox.shiftStep_below_top] at quiet₃
    refine ⟨t₁, t₂, t₃, run₁, run₂, run₃, congrArg BitVec.toNat quiet₁.gear, quiet₁.up,
      display₁ (Gearbox.stays_top ..), congrArg BitVec.toNat quiet₂.gear, quiet₂.dn, quiet₂.up, ?_, quiet₃.up⟩
    rw [quiet₃.gear]
    cases s.cfg.clearOnBound <;> rfl
  · intro noUp gear
    have gearbox : s.gearbox = ⟨1, false, s.confirmDn⟩ := by
      rw [State.gearbox, noUp, BitVec.eq_of_toNat_eq (y := 1) gear]
    have quiet : Quiet s.cfg ⟨1, false, s.confirmDn⟩ s := ⟨inv, rfl, chks, notReady, gearbox⟩
    obtain ⟨t₁, run₁, quiet₁, display₁⟩ := quiet.confirmIteration .dn
    rw [Gearbox.confirm, Gearbox.shiftStep_bottom, Bool.true_and] at quiet₁
    obtain ⟨t₂, run₂, quiet₂, display₂⟩ := quiet₁.iteration
    rw [Gearbox.shiftStep_bottom, Bool.and_self] at quiet₂
    obtain ⟨t₃, run₃, quiet₃, -⟩ := quiet₂.confirmIteration .up
    rw [Gearbox.confirm, Gearbox.shiftStep_bottom_up] at quiet₃
    have shown₁ := display₁ (Gearbox.stays_bottom ..)
    have shown₂ := (display₂ (Gearbox.stays_bottom ..)).trans shown₁
    refine ⟨t₁, t₂, t₃, run₁, run₂, run₃, congrArg BitVec.toNat quiet₁.gear, quiet₁.dn, shown₁,
      congrArg BitVec.toNat quiet₂.gear, quiet₂.dn, shown₂, ?_, quiet₃.up, quiet₃.dn⟩
    rw [quiet₃.gear]
    cases s.cfg.clearOnBound <;> rfl

/-- Settles O49: the four properties of the reset state, and the digit that the two display writes leave. -/
theorem invariantsHoldAtReset : Obligations.InvariantsHoldAtReset :=
  fun c => ⟨resetOf_inv c, resetOf_widths c, resetOf_planAgrees c, resetOf_stripAgrees c,
    fun _ => resetOf_displayShows⟩

/-- Settles O59: the reset state, with the display written out from the entries of the reset gear. -/
theorem resetGivesEveryElement : Obligations.ResetGivesEveryElement := by
  intro s
  obtain ⟨a, d, asserts, releases, display⟩ := resetDisplay_eq s.cfg
  refine ⟨a, d, asserts, releases, ?_⟩
  rw [← display]
  rfl

end Sys2Proof.Machine
